-- ==== Sys2Proof/Word.lean ====
section
/-! DEFINITION. The byte and the byte sequence (spec/00_scope.md R9, R11). -/

namespace Sys2Proof

/-- R9: a byte is 8 bits, unsigned. -/
abbrev Byte := BitVec 8

/-- R11: a byte sequence is a finite list of bytes. -/
abbrev Bytes := List Byte

/-- R15, R28: a frame is the unescaped payload of one DLE-STX…DLE-ETX region, a byte sequence. -/
abbrev Frame := Bytes

end Sys2Proof
end

