-- ==== Sys2Proof/Machine/Operands.lean ====
section
/-! DEFINITION. The operand forms: reading bytes and multi-byte fields of a sequence (spec/00_scope.md R10 to R12,
spec/20_memory.md R36), splitting a value into bytes, and narrowing a byte to an operand's width (R51). -/

namespace Sys2Proof.Machine

/-- R11: `s(i)`, the byte at 0-based index i. R12, R35: every rule checks the bound before it reads, so the default is
never the value of a field (log entry 17). -/
def byteAt (s : Bytes) (i : Nat) : Byte := s.getD i 0

/-- R11: `s(i:+k)`, the k bytes from index i. -/
def slice (s : Bytes) (i k : Nat) : Bytes := (s.drop i).take k

/-- R11, R36: `le16(s, i)`. -/
def le16 (s : Bytes) (i : Nat) : BitVec 16 :=
  (byteAt s i).setWidth 16 ||| ((byteAt s (i + 1)).setWidth 16 <<< 8)

/-- R11, R36: `le32(s, i)`. -/
def le32 (s : Bytes) (i : Nat) : BitVec 32 :=
  (byteAt s i).setWidth 32 ||| ((byteAt s (i + 1)).setWidth 32 <<< 8)
    ||| ((byteAt s (i + 2)).setWidth 32 <<< 16) ||| ((byteAt s (i + 3)).setWidth 32 <<< 24)

/-- Byte k of a value, byte 0 the least significant: `v[8k+7:8k]`, zero-extended where v ends (R10). -/
def byteOf {w : Nat} (v : BitVec w) (k : Nat) : Byte := v.extractLsb' (8 * k) 8

/-- R36: the four bytes of a timestamp, least significant first. -/
def le32Bytes (t : BitVec 32) : Bytes := [byteOf t 0, byteOf t 1, byteOf t 2, byteOf t 3]

/-- Three operand bytes, least significant first, as one value: the layout of a PGN operand (log entry 2). -/
def le24 (a b c : Byte) : BitVec 24 :=
  a.setWidth 24 ||| (b.setWidth 24 <<< 8) ||| (c.setWidth 24 <<< 16)

/-- Four operand bytes, least significant first, as one value: the layout of a timestamp operand (log entry 2). -/
def le32Of (a b c d : Byte) : BitVec 32 := le32 [a, b, c, d] 0

/-- R51: an operand given outside its width cannot be written on the interface; `none` there. -/
def narrow {v : Nat} (w : Nat) (x : BitVec v) : Option (BitVec w) :=
  if x.toNat < 2 ^ w then some (x.setWidth w) else none

end Sys2Proof.Machine
end

