-- ==== Sys2Proof/Machine/Wire.lean ====
section
/-! DEFINITION. The fixed constants of the block (spec/00_scope.md R7), each named in one place. -/

namespace Sys2Proof.Machine

/-- R7: the escape byte. -/
def DLE : Byte := 0x10

/-- R7: start of text after a DLE. PRESUMED by the spec itself (G1, D3), log entry 6: unsafe. -/
def STX : Byte := 0x02

/-- R7: end of text after a DLE. PRESUMED by the spec itself (G1, D3), log entry 6: unsafe. -/
def ETX : Byte := 0x03

/-- R7: the tag of a Type 0x93 record. -/
def TAG93 : Byte := 0x93

/-- R7: the tag of a Type 0x94 record. -/
def TAG94 : Byte := 0x94

/-- R7: the tag of a Type 0xD0 record. -/
def TAGD0 : Byte := 0xD0

/-- R56: the three tags that select a record layout. -/
def isRecordTag (t : Byte) : Bool := t == TAG93 || t == TAG94 || t == TAGD0

end Sys2Proof.Machine
end

