-- ==== Sys2Proof/Syntax.lean ====
section
/-! DEFINITION. The instructions: one constructor per row of spec/opcode_table.json (spec/30_encoding.md R50, R56, R54, R72),
each operand at its width (R51), and the units in which they reach the block. -/

namespace Sys2Proof

/-- spec/10_state.md R18: the two phases of a framer instance. -/
inductive Phase where
  | idle      -- outside any frame
  | inFrame   -- accumulating payload bytes
deriving DecidableEq, Repr

/-- One constructor per row of spec/opcode_table.json. `i` is a framer instance operand `#i` (R50, R131). -/
inductive Instr where
  /-- R76: the checksum byte of `s`. -/
  | cksum (s : Bytes)
  /-- R77: whether `s` sums to zero. -/
  | zsum (s : Bytes)
  /-- R80: compose a PGN. -/
  | pgnc (dp : BitVec 2) (pf ps : Byte)
  /-- R82: split a PGN. -/
  | pgns (pgn : BitVec 20)
  /-- R85: decode one frame into a record or an error. -/
  | rdec (f : Frame)
  /-- R95: encode a Type 0x93 record. -/
  | enc93 (pgn : BitVec 20) (priority : BitVec 3) (source destination : Byte) (timestamp : BitVec 32) (data : Bytes)
  /-- R96: encode a Type 0x94 record. -/
  | enc94 (pgn : BitVec 20) (priority : BitVec 3) (destination : Byte) (data : Bytes)
  /-- R97: encode a Type 0xD0 record. -/
  | encd0 (pgn : BitVec 20) (priority : BitVec 3) (source destination : Byte) (timestamp : BitVec 32)
      (direction : BitVec 1) (messageClass : BitVec 2) (sourceOrigin : BitVec 1) (fastPacketSequence : BitVec 3)
      (data : Bytes)
  /-- R102: one byte into instance i. -/
  | fdecb (i : Nat) (b : Byte)
  /-- R110: a chunk into instance i. -/
  | fdecc (i : Nat) (chunk : Bytes)
  /-- R111: wrap a payload in a stuffed frame. -/
  | fenc (p : Bytes)
  /-- R113: tear instance i down. -/
  | frst (i : Nat)
  /-- R89: record decode of a frame whose byte 0 is 0x93; `rest` is the frame after that byte. -/
  | dec93 (rest : Bytes)
  /-- R90: record decode of a frame whose byte 0 is 0x94. -/
  | dec94 (rest : Bytes)
  /-- R91: record decode of a frame whose byte 0 is 0xD0. -/
  | decd0 (rest : Bytes)
  /-- R92: record decode of a frame whose byte 0 is any other tag. -/
  | decUnsupported (tag : Byte) (rest : Bytes)
  /-- R105: the pair `10 10` in a frame. -/
  | escDleLiteral (i : Nat)
  /-- R106: the pair `10 03` in a frame. -/
  | escEtxEmit (i : Nat)
  /-- R107: the pair `10 02` in a frame. -/
  | escStxRestart (i : Nat)
  /-- R108: the pair `10 xx` in a frame, xx none of 0x10, 0x02, 0x03. -/
  | escDesync (i : Nat) (xx : Byte)
  /-- R103 (c): the pair `10 02` while idle. -/
  | idleDleStxStart (i : Nat)
  /-- R103 (d): the pair `10 10` while idle. -/
  | idleDleDle (i : Nat)
  /-- R103 (e): the pair `10 xx` while idle, xx neither 0x02 nor 0x10. -/
  | idleDleOther (i : Nat) (xx : Byte)
deriving DecidableEq, Repr

/-- The three "opcodes in the decoder sense" of spec/30_encoding.md: where a unit is presented (log entries 1 and 3). -/
inductive Port where
  | command  -- a selector and its operands (R50)
  | record   -- a frame handed to the record decoder, selected by its tag (R56)
  | stream   -- inbound bytes of a framer instance, selected by escape pairs (R54)
deriving DecidableEq, Repr

/-- One unit the collaborator has issued: the port, the instance named `#i` (R70; 0 where the operation names none), and
the bytes. "The encoding of each command is its selector byte followed by its operands" (spec/95_test_vectors.md §3). -/
structure Input where
  port : Port
  inst : Nat
  bytes : Bytes
deriving DecidableEq, Repr

end Sys2Proof
end

