-- ==== Sys2Proof/WellFormed.lean ====
section
/-! DEFINITION. Which terms of Instr stand for words of their row. Operand widths are in the types (spec/30_encoding.md R51);
what is left are the rows whose byte excludes other rows' bytes (R54, R56). -/

namespace Sys2Proof

open Machine

/-- R54: the second byte of an in-frame desync pair is none of 0x10, 0x02, 0x03. -/
def isDesyncByte (b : Byte) : Bool := b != DLE && b != STX && b != ETX

/-- R54: the second byte of the idle pair that is discarded is neither 0x02 nor 0x10. -/
def isIdleOtherByte (b : Byte) : Bool := b != STX && b != DLE

/-- The checks an instruction passes. -/
def Instr.wellFormed : Instr → Bool
  | .cksum _ => true
  | .zsum _ => true
  | .pgnc _ _ _ => true
  | .pgns _ => true
  | .rdec _ => true
  | .enc93 _ _ _ _ _ _ => true
  | .enc94 _ _ _ _ => true
  | .encd0 _ _ _ _ _ _ _ _ _ _ => true
  | .fdecb _ _ => true
  | .fdecc _ _ => true
  | .fenc _ => true
  | .frst _ => true
  | .dec93 _ => true
  | .dec94 _ => true
  | .decd0 _ => true
  | .decUnsupported tag _ => !isRecordTag tag
  | .escDleLiteral _ => true
  | .escEtxEmit _ => true
  | .escStxRestart _ => true
  | .escDesync _ xx => isDesyncByte xx
  | .idleDleStxStart _ => true
  | .idleDleDle _ => true
  | .idleDleOther _ xx => isIdleOtherByte xx

/-- R54: the phase in which a pair's row stands; the other rows stand in both. -/
def Instr.phase? : Instr → Option Phase
  | .cksum _ => none
  | .zsum _ => none
  | .pgnc _ _ _ => none
  | .pgns _ => none
  | .rdec _ => none
  | .enc93 _ _ _ _ _ _ => none
  | .enc94 _ _ _ _ => none
  | .encd0 _ _ _ _ _ _ _ _ _ _ => none
  | .fdecb _ _ => none
  | .fdecc _ _ => none
  | .fenc _ => none
  | .frst _ => none
  | .dec93 _ => none
  | .dec94 _ => none
  | .decd0 _ => none
  | .decUnsupported _ _ => none
  | .escDleLiteral _ => some .inFrame
  | .escEtxEmit _ => some .inFrame
  | .escStxRestart _ => some .inFrame
  | .escDesync _ _ => some .inFrame
  | .idleDleStxStart _ => some .idle
  | .idleDleDle _ => some .idle
  | .idleDleOther _ _ => some .idle

/-- An instruction's row stands in phase `ph` with pending-escape flag `esc`: a pair's row needs its own phase and no
escape already pending (R54: a pair begins with its DLE). -/
def Instr.standsIn (i : Instr) (ph : Phase) (esc : Bool) : Bool :=
  match i.phase? with
  | none => true
  | some p => p == ph && !esc

end Sys2Proof
end

