-- ==== Sys2Proof/Decode.lean ====
section
/-! DEFINITION. Decoding: the command selectors (spec/30_encoding.md R50), the record tags (R56) and the escape pairs (R54),
total on any bytes; then the encoder, from the same tables. The layout of a command's operands after its selector is the
model's (DESIGN CHOICE, log entry 2): R50's operand order, each fixed-width operand in whole bytes, least significant first,
a byte-sequence operand last and delimited by the command (R69). -/

namespace Sys2Proof

open Machine

/-- R50: the twelve commands. -/
inductive Opcode where
  | cksum | zsum | pgnc | pgns | rdec | enc93 | enc94 | encd0 | fdecb | fdecc | fenc | frst
deriving DecidableEq, Repr

/-- R50: the command table's OP column. -/
def Opcode.selector : Opcode → Byte
  | .cksum => 0x01
  | .zsum => 0x02
  | .pgnc => 0x03
  | .pgns => 0x04
  | .rdec => 0x10
  | .enc93 => 0x13
  | .enc94 => 0x14
  | .encd0 => 0x1D
  | .fdecb => 0x20
  | .fdecc => 0x21
  | .fenc => 0x22
  | .frst => 0x2F

/-- R50: the command table's rows, in its order. -/
def Opcode.all : List Opcode :=
  [.cksum, .zsum, .pgnc, .pgns, .rdec, .enc93, .enc94, .encd0, .fdecb, .fdecc, .fenc, .frst]

/-- R50, R52: the command a selector spells, if any. -/
def Opcode.ofSelector? (b : Byte) : Option Opcode := Opcode.all.find? (fun op => op.selector == b)

/-- How many bytes a command's fixed-width operands take in the model's layout (log entry 2). -/
def Opcode.fixedBytes : Opcode → Nat
  | .cksum => 0
  | .zsum => 0
  | .pgnc => 3
  | .pgns => 3
  | .rdec => 0
  | .enc93 => 10
  | .enc94 => 5
  | .encd0 => 14
  | .fdecb => 1
  | .fdecc => 0
  | .fenc => 0
  | .frst => 0

/-- Why bytes on the command port spell no command. -/
inductive Undecoded where
  /-- R52: the selector is not in R50's table. -/
  | unknownSelector (op : Byte)
  /-- The bytes are not the operands of this command in the model's layout (log entry 12). -/
  | malformedCommand (op : Byte)
  /-- R51: an operand is outside its width. -/
  | operandOverWidth (op : Byte)
  /-- A command without even a selector. -/
  | emptyCommand
deriving DecidableEq, Repr

/-- The operands of one command (R50's operand column), instance `i` beside the bytes. -/
def decodeOperands (op : Opcode) (i : Nat) (bs : Bytes) : Except Undecoded Instr :=
  match op with
  | .cksum => .ok (.cksum bs)
  | .zsum => .ok (.zsum bs)
  | .pgnc =>
    match bs with
    | [dp, pf, ps] =>
      match narrow 2 dp with
      | some dp => .ok (.pgnc dp pf ps)
      | none => .error (.operandOverWidth op.selector)
    | _ => .error (.malformedCommand op.selector)
  | .pgns =>
    match bs with
    | [p0, p1, p2] =>
      match narrow 20 (le24 p0 p1 p2) with
      | some pgn => .ok (.pgns pgn)
      | none => .error (.operandOverWidth op.selector)
    | _ => .error (.malformedCommand op.selector)
  | .rdec => .ok (.rdec bs)
  | .enc93 =>
    match bs with
    | p0 :: p1 :: p2 :: pr :: src :: dst :: t0 :: t1 :: t2 :: t3 :: data =>
      match narrow 20 (le24 p0 p1 p2), narrow 3 pr with
      | some pgn, some pr => .ok (.enc93 pgn pr src dst (le32Of t0 t1 t2 t3) data)
      | _, _ => .error (.operandOverWidth op.selector)
    | _ => .error (.malformedCommand op.selector)
  | .enc94 =>
    match bs with
    | p0 :: p1 :: p2 :: pr :: dst :: data =>
      match narrow 20 (le24 p0 p1 p2), narrow 3 pr with
      | some pgn, some pr => .ok (.enc94 pgn pr dst data)
      | _, _ => .error (.operandOverWidth op.selector)
    | _ => .error (.malformedCommand op.selector)
  | .encd0 =>
    match bs with
    | p0 :: p1 :: p2 :: pr :: src :: dst :: t0 :: t1 :: t2 :: t3 :: dir :: mc :: so :: fps :: data =>
      match narrow 20 (le24 p0 p1 p2), narrow 3 pr, narrow 1 dir, narrow 2 mc, narrow 1 so, narrow 3 fps with
      | some pgn, some pr, some dir, some mc, some so, some fps =>
        .ok (.encd0 pgn pr src dst (le32Of t0 t1 t2 t3) dir mc so fps data)
      | _, _, _, _, _, _ => .error (.operandOverWidth op.selector)
    | _ => .error (.malformedCommand op.selector)
  | .fdecb =>
    match bs with
    | [b] => .ok (.fdecb i b)
    | _ => .error (.malformedCommand op.selector)
  | .fdecc => .ok (.fdecc i bs)
  | .fenc => .ok (.fenc bs)
  | .frst =>
    match bs with
    | [] => .ok (.frst i)
    | _ => .error (.malformedCommand op.selector)

/-- The command port (R50, R52): a selector byte, then its operands. -/
def decodeCommand (i : Nat) (bs : Bytes) : Except Undecoded Instr :=
  match bs with
  | [] => .error .emptyCommand
  | sel :: operands =>
    match Opcode.ofSelector? sel with
    | some op => decodeOperands op i operands
    | none => .error (.unknownSelector sel)

/-- The record port (R56, R87): byte 0 of the frame selects the row, by exact match. An empty frame has no tag and is RDEC's
(R86). -/
def decodeTag (f : Frame) : Instr :=
  match f with
  | [] => .rdec []
  | t :: rest =>
    if t = TAG93 then .dec93 rest
    else if t = TAG94 then .dec94 rest
    else if t = TAGD0 then .decd0 rest
    else .decUnsupported t rest

/-- R54: the row that a pair `DLE b` spells, by phase. -/
def decodePair (ph : Phase) (i : Nat) (b : Byte) : Instr :=
  match ph with
  | .inFrame =>
    if b = DLE then .escDleLiteral i
    else if b = ETX then .escEtxEmit i
    else if b = STX then .escStxRestart i
    else .escDesync i b
  | .idle =>
    if b = STX then .idleDleStxStart i
    else if b = DLE then .idleDleDle i
    else .idleDleOther i b

/-- The stream port (R54): exactly one escape pair that no earlier DLE is pending before is its row; any other inbound bytes
are a chunk, FDECC's operand (R110). -/
def decodeStream (ph : Phase) (esc : Bool) (i : Nat) (bs : Bytes) : Instr :=
  match bs with
  | [a, b] => if a = DLE ∧ esc = false then decodePair ph i b else .fdecc i bs
  | _ => .fdecc i bs

/-- Decoding of one unit, total on any bytes. `ph` and `esc` are those of the instance the unit names: the escape pairs are
selected by them (R54, R102); the other ports do not look at them. -/
def decode (ph : Phase) (esc : Bool) (u : Input) : Except Undecoded Instr :=
  match u.port with
  | .command => decodeCommand u.inst u.bytes
  | .record => .ok (decodeTag u.bytes)
  | .stream => .ok (decodeStream ph esc u.inst u.bytes)

/-- The operands of a PGN field: three bytes, least significant first (log entry 2). -/
def pgnBytes (pgn : BitVec 20) : Bytes := [byteOf pgn 0, byteOf pgn 1, byteOf pgn 2]

/-- A command's unit: its selector and its operand bytes. -/
def commandUnit (op : Opcode) (i : Nat) (operands : Bytes) : Input :=
  { port := .command, inst := i, bytes := op.selector :: operands }

/-- A record's unit: the whole frame. -/
def recordUnit (f : Frame) : Input := { port := .record, inst := 0, bytes := f }

/-- A pair's unit: the DLE and the byte after it. -/
def pairUnit (i : Nat) (b : Byte) : Input := { port := .stream, inst := i, bytes := [DLE, b] }

/-- The encoder, from the same tables (R50, R54, R56). -/
def encode : Instr → Input
  | .cksum s => commandUnit .cksum 0 s
  | .zsum s => commandUnit .zsum 0 s
  | .pgnc dp pf ps => commandUnit .pgnc 0 [dp.setWidth 8, pf, ps]
  | .pgns pgn => commandUnit .pgns 0 (pgnBytes pgn)
  | .rdec f => commandUnit .rdec 0 f
  | .enc93 pgn pr src dst ts data =>
    commandUnit .enc93 0 (pgnBytes pgn ++ [pr.setWidth 8, src, dst] ++ le32Bytes ts ++ data)
  | .enc94 pgn pr dst data => commandUnit .enc94 0 (pgnBytes pgn ++ [pr.setWidth 8, dst] ++ data)
  | .encd0 pgn pr src dst ts dir mc so fps data =>
    commandUnit .encd0 0 (pgnBytes pgn ++ [pr.setWidth 8, src, dst] ++ le32Bytes ts
      ++ [dir.setWidth 8, mc.setWidth 8, so.setWidth 8, fps.setWidth 8] ++ data)
  | .fdecb i b => commandUnit .fdecb i [b]
  | .fdecc i chunk => commandUnit .fdecc i chunk
  | .fenc p => commandUnit .fenc 0 p
  | .frst i => commandUnit .frst i []
  | .dec93 rest => recordUnit (TAG93 :: rest)
  | .dec94 rest => recordUnit (TAG94 :: rest)
  | .decd0 rest => recordUnit (TAGD0 :: rest)
  | .decUnsupported tag rest => recordUnit (tag :: rest)
  | .escDleLiteral i => pairUnit i DLE
  | .escEtxEmit i => pairUnit i ETX
  | .escStxRestart i => pairUnit i STX
  | .escDesync i xx => pairUnit i xx
  | .idleDleStxStart i => pairUnit i STX
  | .idleDleDle i => pairUnit i DLE
  | .idleDleOther i xx => pairUnit i xx

/-- The unit that a word of spec/opcode_table.json stands for, every operand bit above the row's bits zero (log entry 4). An
8-bit word is a command's selector where R50 lists it and otherwise a record's tag byte. A 16-bit word is an escape pair,
whose first stream byte is the word's high byte: the table writes the pair `10 02` as 0x1002. -/
def tableUnit (nbits w : Nat) : Option Input :=
  if nbits = 8 ∧ w < 256 then
    match Opcode.ofSelector? (BitVec.ofNat 8 w) with
    | some op => some (commandUnit op 0 (List.replicate op.fixedBytes 0))
    | none => some (recordUnit [BitVec.ofNat 8 w])
  else if nbits = 16 ∧ w < 65536 then
    some { port := .stream, inst := 0, bytes := [BitVec.ofNat 8 (w / 256), BitVec.ofNat 8 (w % 256)] }
  else none

/-- What the decoder reads from a table word. The rows of R54 share words between the two phases; here a pair is read in a
frame, where the table's first row for it stands (log entry 4). -/
def decodeTableWord (nbits w : Nat) : Option Instr :=
  match tableUnit nbits w with
  | none => none
  | some u =>
    match decode .inFrame false u with
    | .ok i => some i
    | .error _ => none

end Sys2Proof
end

