-- ==== Sys2Proof/Config.lean ====
section
/-! DEFINITION. What an implementation fixes: the parameters of spec/00_scope.md R8, and the one value the spec leaves free. -/

namespace Sys2Proof

/-- R8, R103 (d): what a DLE does in the Idle phase while an escape is already pending. -/
inductive IdleDleDle where
  | keep   -- the pending escape stays set (the spec's decision, D5)
  | clear  -- the alternative reading
deriving DecidableEq, Repr

/-- R8: the parameters a model takes as arguments, "fixed when an instance is made" (R25). `P_INSTANCES` is the number of
framers in the state. `frameCap = none` is `P_FRAME_CAP = ∞`. -/
structure Params where
  frameCap : Option Nat
  idleDleDle : IdleDleDle
  dpMask : Byte
deriving DecidableEq, Repr

/-- R8: the values that follow every decision of the spec. DESIGN CHOICE for the OPEN capacity (log entry 7). -/
def Params.decided : Params := { frameCap := none, idleDleDle := .keep, dpMask := 0x03 }

/-- R8: a finite capacity is at least 1. -/
def Params.ok (p : Params) : Bool :=
  match p.frameCap with
  | none => true
  | some c => 1 ≤ c

/-- R20, R28: a byte sequence of n bytes is within `P_FRAME_CAP`. -/
def Params.fits (p : Params) (n : Nat) : Bool :=
  match p.frameCap with
  | none => true
  | some c => n ≤ c

/-- R100, I3, D19: the text of an error's diagnostic message is any value, "not architectural". A free value with no body:
a function of the operation and its operands alone, as every result of the stateless units is (R26). DEDUCED, log entry 14:
safe. -/
opaque Config.diagnosticText : Instr → String

end Sys2Proof
end

