-- ==== Sys2Proof/Machine/Values.lean ====
section
/-! DEFINITION. The values operations return, not stored by the block (spec/10_state.md R28 to R30): records, errors with
their diagnostic (spec/60_exceptions.md R117), and the result bundle of each command (spec/30_encoding.md R50). -/

namespace Sys2Proof.Machine

/-- R29: the three record types. -/
inductive RecordType where
  | type93 | type94 | typeD0
deriving DecidableEq, Repr

/-- R29: a decoded record. `none` is R29's "absent". `direction`: 0 received, 1 transmitted; `sourceOrigin`: 0 external,
1 internal. -/
structure BstRecord where
  recordType : RecordType
  pgn : BitVec 20
  priority : BitVec 3
  source : Option Byte
  destination : Byte
  timestamp : Option (BitVec 32)
  payloadData : Bytes
  direction : Option (BitVec 1)
  messageClass : Option (BitVec 2)
  sourceOrigin : Option (BitVec 1)
  fastPacketSequence : Option (BitVec 3)
deriving DecidableEq, Repr

/-- R117: which check found the payload too short. -/
inductive ShortCheck where
  | empty        -- R86: the frame has no byte
  | lengthField  -- R88 step 1: the length field is cut off
  | header       -- R88 step 3: the fixed header does not fit before the checksum
deriving DecidableEq, Repr

/-- R117: which operand does not fit the record. -/
inductive RangeOperand where
  | data | pgn
deriving DecidableEq, Repr

/-- R117: the six errors, each with what it records (`info`). -/
inductive Error where
  /-- R118: the tag byte. -/
  | unsupportedType (tag : Byte)
  /-- R119: sum8 of the frame, non-zero. -/
  | checksum (sum : Byte)
  /-- R120: the declared length L and the actual N. -/
  | lengthMismatch (declared actual : Nat)
  /-- R121: N and the check that failed. -/
  | payloadTooShort (actual : Nat) (check : ShortCheck)
  /-- R122: the declared data length and n. -/
  | dataLengthMismatch (declared actual : Nat)
  /-- R123: the operand. -/
  | encodeRange (operand : RangeOperand)
deriving DecidableEq, Repr

/-- R30, R117: the status codes. -/
inductive Status where
  | ok | unsupportedType | checksum | lengthMismatch | payloadTooShort | dataLengthMismatch | encodeRange
deriving DecidableEq, Repr

/-- R50: a command's result bundle. -/
inductive Result where
  /-- CKSUM: `c`. -/
  | checksumByte (c : Byte)
  /-- ZSUM: `z`. -/
  | zeroSum (z : BitVec 1)
  /-- PGNC: `pgn`. -/
  | pgn (pgn : BitVec 20)
  /-- PGNS with status OK: `dp`, `pf`, `ps`. -/
  | split (dp : BitVec 2) (pf ps : Byte)
  /-- RDEC and its tag rows with status OK: the record. -/
  | record (r : BstRecord)
  /-- ENC93, ENC94, ENCD0 with status OK: the record bytes. -/
  | encoded (bytes : Bytes)
  /-- FDECB, FDECC and the escape pairs: the frames emitted, in completion order. -/
  | frames (fs : List Frame)
  /-- FENC: the stuffed frame. -/
  | wire (bytes : Bytes)
  /-- FRST: a bundle with nothing in it. -/
  | empty
  /-- R116: an error's status and diagnostic, `text` its message (any value, R100). -/
  | error (e : Error) (text : String)
deriving DecidableEq, Repr

end Sys2Proof.Machine
end

