-- ==== Sys2Proof/Machine/Flags.lean ====
section
/-! DEFINITION. Codes and flags: the numeric encodings of phase (spec/10_state.md R18), record tag and status
(spec/60_exceptions.md R117), and the one-bit rules of the pending-escape flag (R103 (d)) and of ZSUM's result (R77). There
are no condition codes (R24). -/

namespace Sys2Proof.Machine

/-- R18: `Idle = 0`, `InFrame = 1`. -/
def phaseCode : Phase → BitVec 1
  | .idle => 0
  | .inFrame => 1

/-- R30: the status of an error. -/
def errorStatus : Error → Status
  | .unsupportedType _ => .unsupportedType
  | .checksum _ => .checksum
  | .lengthMismatch _ _ => .lengthMismatch
  | .payloadTooShort _ _ => .payloadTooShort
  | .dataLengthMismatch _ _ => .dataLengthMismatch
  | .encodeRange _ => .encodeRange

/-- R117: the numeric status codes. -/
def statusCode : Status → Nat
  | .ok => 0
  | .unsupportedType => 1
  | .checksum => 2
  | .lengthMismatch => 3
  | .payloadTooShort => 4
  | .dataLengthMismatch => 5
  | .encodeRange => 6

/-- R50: the status a result bundle carries, for the operations that return one. -/
def resultStatus : Result → Option Status
  | .checksumByte _ => none
  | .zeroSum _ => none
  | .pgn _ => none
  | .split _ _ _ => some .ok
  | .record _ => some .ok
  | .encoded _ => some .ok
  | .frames _ => none
  | .wire _ => none
  | .empty => none
  | .error e _ => some (errorStatus e)

/-- R103 (d): the pending-escape flag after a DLE met an escape already pending in Idle. -/
def escAfterIdleDleDle (p : Params) : Bool :=
  match p.idleDleDle with
  | .keep => true
  | .clear => false

/-- R11: `sum8(s)`, the sum of the bytes taken with unbounded width and then reduced mod 256 (R76). -/
def sum8 (s : Bytes) : Byte := BitVec.ofNat 8 (s.map BitVec.toNat).sum

/-- R77: ZSUM's 1-bit result. -/
def isZeroSum (s : Bytes) : BitVec 1 := if sum8 s = 0 then 1 else 0

end Sys2Proof.Machine
end

