-- ==== Sys2Proof/Machine/State.lean ====
section
/-! DEFINITION. The state of the block (spec/10_state.md R17 to R27), its parameters (spec/00_scope.md R8), the commands
waiting and the results returned (spec/70_reset_and_hazards.md R143, R144); the reasons a step can stop; the state after
reset (R32, R132). -/

namespace Sys2Proof.Machine

/-- R17: a framer decoder instance holds exactly three fields. -/
structure Framer where
  /-- R18. -/
  phase : Phase
  /-- R19: the last byte consumed was a DLE that has not yet been paired. -/
  esc : Bool
  /-- R20: the unescaped bytes of the frame in progress. -/
  buf : Bytes
deriving DecidableEq, Repr

/-- R32: a framer instance after reset, `(Idle, 0, [])`. -/
def Framer.reset : Framer := { phase := .idle, esc := false, buf := [] }

/-- The whole state. `framers[i]` is instance `#i`; their number is `P_INSTANCES` (R131). `inbox` and `outbox` are the
model's own fields for the host interface (log entries 1 and 5). -/
structure State where
  params : Params
  framers : List Framer
  inbox : List Input
  outbox : List Result
deriving DecidableEq, Repr

/-- A stop with a fault. -/
inductive Fault where
  /-- Raised by an operation whose instance operand names no instance: R131 gives the block `P_INSTANCES` instances and no
  others, and says nothing of an operation on another. DESIGN CHOICE, log entry 11: safe. -/
  | noSuchInstance (i : Nat)
deriving DecidableEq, Repr

/-- A stop because there is no meaning. -/
inductive Refusal where
  /-- Raised by `exec` for a row that has no meaning yet; no row of this model is left so. Safe. -/
  | notModelled (mnemonic : String)
  /-- Raised by `step`: a selector not in R50's table "spells no operation" and is refused (R52). Safe. -/
  | unknownSelector (op : Byte)
  /-- Raised by `step`: the bytes after the selector are not the command's operands in the model's layout; the spec gives
  such bytes no meaning. DESIGN CHOICE, log entry 12: safe. -/
  | malformedCommand (op : Byte)
  /-- Raised by `step`: an operand outside its width "cannot be written on the interface" (R51). Log entry 12: safe. -/
  | operandOverWidth (op : Byte)
  /-- Raised by `step`: a command without a selector. DESIGN CHOICE, log entry 12: safe. -/
  | emptyCommand
deriving DecidableEq, Repr

/-- R132, R134: the block with its parameters fixed and `n` instances just made, nothing issued. -/
def State.make (p : Params) (n : Nat) : State :=
  { params := p, framers := List.replicate n Framer.reset, inbox := [], outbox := [] }

/-- The machine right after reset: R32's framer state in every instance, R8's decided parameters. `P_INSTANCES` is OPEN; two
instances, the number the programs of spec/95_test_vectors.md name. DESIGN CHOICE, log entry 8. -/
def State.reset : State := State.make Params.decided 2

end Sys2Proof.Machine
end

