-- ==== Sys2Proof/Machine/Ops.lean ====
section
/-! DEFINITION. The named operations over the state: returning a result bundle, raising an error (the block's one kind of
exception, spec/60_exceptions.md R116), reading and writing a framer instance, and `Append` (spec/20_memory.md R40). -/

namespace Sys2Proof.Machine

/-- What a step answers. -/
abbrev Outcome := Host.Outcome State Fault Refusal

/-- R50, R144: an operation completes and returns its result bundle; bundles stand in issue order. -/
def State.answer (s : State) (r : Result) : State := { s with outbox := s.outbox ++ [r] }

/-- R116, R127: what raising an error does, the ONE shared operation for every error. The operation ends, returns the status
and the diagnostic, no record and no bytes, and writes no state. There is no trap entry and no return from one (R127, R128).
`cmd` is the operation with its operands, on which alone the free message text may depend (log entry 14). -/
def raise (cmd : Instr) (e : Error) (s : State) : Outcome :=
  .next (s.answer (.error e (Config.diagnosticText cmd)))

/-- R13: the end of an operation that may raise: its result bundle, or the error. -/
def finish {α : Type} (cmd : Instr) (bundle : α → Result) (x : Except Error α) (s : State) : Outcome :=
  match x with
  | .ok a => .next (s.answer (bundle a))
  | .error e => raise cmd e s

/-- R12: `F <- F'` on instance `#i`. -/
def State.setFramer (s : State) (i : Nat) (f : Framer) : State := { s with framers := s.framers.set i f }

/-- R13: an operation on instance `#i`, from its state to its next state and the frames emitted. An instance that does not
exist: log entry 11. -/
def onFramer (i : Nat) (op : Framer → Framer × List Frame) (s : State) : Outcome :=
  match s.framers[i]? with
  | none => .fault (.noSuchInstance i)
  | some f => .next ((s.setFramer i (op f).1).answer (.frames (op f).2))

/-- R40: `Append(F.buf, b)`; `none` is `FULL`. -/
def append (p : Params) (buf : Bytes) (b : Byte) : Option Bytes :=
  if p.fits (buf.length + 1) then some (buf ++ [b]) else none

/-- The phase and the pending escape that select an escape pair for the unit's instance (R54). An instance that does not
exist has none; its unit ends in the fault of `onFramer` whatever is selected. -/
def State.context (s : State) (i : Nat) : Phase × Bool :=
  match s.framers[i]? with
  | some f => (f.phase, f.esc)
  | none => (.idle, false)

/-- The unit is taken from the commands waiting. -/
def State.withInbox (s : State) (rest : List Input) : State := { s with inbox := rest }

/-- Why bytes spell no command, as the step's refusal (R52, log entry 12). -/
def refusalOf : Undecoded → Refusal
  | .unknownSelector op => .unknownSelector op
  | .malformedCommand op => .malformedCommand op
  | .operandOverWidth op => .operandOverWidth op
  | .emptyCommand => .emptyCommand

/-- Instance #0 in a frame with no escape pending: where the table's in-frame rows stand (log entry 4). -/
def State.enterFrame (s : State) : State :=
  match s.framers[0]? with
  | some f => s.setFramer 0 { f with phase := .inFrame, esc := false }
  | none => s

/-- A table word's unit placed at the head of the commands waiting. A 16-bit word is an escape pair of the in-frame rows. -/
def State.present (s : State) (nbits : Nat) (u : Input) : State :=
  if nbits = 16 then s.enterFrame.withInbox (u :: s.inbox) else s.withInbox (u :: s.inbox)

end Sys2Proof.Machine
end

