-- ==== Sys2Proof/Machine/FramerUnit.lean ====
section
/-! DEFINITION. The BDTP framer (spec/43_framer.md): FDECB, FDECC, FENC, FRST, and the seven escape pairs of
spec/30_encoding.md R54. -/

namespace Sys2Proof.Machine

/-- R102 `ABORT`, R108, R109: the frame in progress is discarded silently and the instance is idle. -/
def abortFrame : Framer := { phase := .idle, esc := false, buf := [] }

/-- R104 (b), R105, R109: one data byte appended in a frame, no escape pending after it; a full buffer aborts. -/
def appendData (p : Params) (f : Framer) (b : Byte) : Framer :=
  match append p f.buf b with
  | some buf => { f with esc := false, buf := buf }
  | none => abortFrame

/-- R103: one byte while idle. -/
def idleStep (p : Params) (f : Framer) (b : Byte) : Framer :=
  if f.esc then
    if b = STX then { phase := .inFrame, esc := false, buf := [] }
    else if b = DLE then { f with esc := escAfterIdleDleDle p }
    else { f with esc := false }
  else
    if b = DLE then { f with esc := true } else f

/-- R104 to R109: one byte in a frame, and the frame it completes, if any. -/
def inFrameStep (p : Params) (f : Framer) (b : Byte) : Framer × List Frame :=
  if f.esc then
    if b = DLE then (appendData p f DLE, [])
    else if b = ETX then ({ phase := .idle, esc := false, buf := [] }, [f.buf])
    else if b = STX then ({ f with esc := false, buf := [] }, [])
    else (abortFrame, [])
  else
    if b = DLE then ({ f with esc := true }, []) else (appendData p f b, [])

/-- R102: FDECB, one input byte, zero or one frame. -/
def framerStep (p : Params) (f : Framer) (b : Byte) : Framer × List Frame :=
  match f.phase with
  | .idle => (idleStep p f b, [])
  | .inFrame => inFrameStep p f b

/-- R110: FDECC, the fold of FDECB over the chunk in index order; frames in completion order. -/
def framerDecode (p : Params) (f : Framer) (chunk : Bytes) : Framer × List Frame :=
  match chunk with
  | [] => (f, [])
  | b :: rest =>
    ((framerDecode p (framerStep p f b).1 rest).1,
      (framerStep p f b).2 ++ (framerDecode p (framerStep p f b).1 rest).2)

/-- R53: `stuff(P)`, every DLE doubled. -/
def stuff (payload : Bytes) : Bytes :=
  match payload with
  | [] => []
  | b :: rest => if b = DLE then b :: DLE :: stuff rest else b :: stuff rest

/-- R111: FENC, `DLE STX stuff(P) DLE ETX`. -/
def framerEncode (payload : Bytes) : Bytes := [DLE, STX] ++ stuff payload ++ [DLE, ETX]

/-- R54: both bytes of a pair fed to instance `#i`. In the phase in which decoding selects the pair's row this is the
transition the row names; fed in any other state the two bytes do what R102 says of them there (log entry 15). -/
def feedPair (i : Nat) (b : Byte) (s : State) : Outcome := onFramer i (fun f => framerDecode s.params f [DLE, b]) s

/-- R102 FDECB. -/
def execFdecb (i : Nat) (b : Byte) (s : State) : Outcome := onFramer i (fun f => framerStep s.params f b) s

/-- R110 FDECC. -/
def execFdecc (i : Nat) (chunk : Bytes) (s : State) : Outcome := onFramer i (fun f => framerDecode s.params f chunk) s

/-- R111 FENC. -/
def execFenc (payload : Bytes) (s : State) : Outcome := .next (s.answer (.wire (framerEncode payload)))

/-- R113 FRST: the instance is in its reset state; no frame is emitted. -/
def execFrst (i : Nat) (s : State) : Outcome :=
  match s.framers[i]? with
  | none => .fault (.noSuchInstance i)
  | some _ => .next ((s.setFramer i Framer.reset).answer .empty)

/-- R105 ESC_DLE_LITERAL, `10 10` in a frame: one literal 0x10. -/
def execEscDleLiteral (i : Nat) (s : State) : Outcome := feedPair i DLE s

/-- R106 ESC_ETX_EMIT, `10 03` in a frame: the frame is emitted. -/
def execEscEtxEmit (i : Nat) (s : State) : Outcome := feedPair i ETX s

/-- R107 ESC_STX_RESTART, `10 02` in a frame: the frame so far is discarded, a new one begins. -/
def execEscStxRestart (i : Nat) (s : State) : Outcome := feedPair i STX s

/-- R108 ESC_DESYNC, `10 xx` in a frame: the frame is discarded silently. -/
def execEscDesync (i : Nat) (xx : Byte) (s : State) : Outcome := feedPair i xx s

/-- R103 (c) IDLE_DLE_STX_START, `10 02` while idle: start of frame. -/
def execIdleDleStxStart (i : Nat) (s : State) : Outcome := feedPair i STX s

/-- R103 (d) IDLE_DLE_DLE, `10 10` while idle: the first DLE is discarded. -/
def execIdleDleDle (i : Nat) (s : State) : Outcome := feedPair i DLE s

/-- R103 (e) IDLE_DLE_OTHER, `10 xx` while idle: both bytes are discarded. -/
def execIdleDleOther (i : Nat) (xx : Byte) (s : State) : Outcome := feedPair i xx s

end Sys2Proof.Machine
end

