-- ==== Sys2Proof/Machine/Checksum.lean ====
section
/-! DEFINITION. The checksum unit (spec/40_checksum.md): CKSUM and ZSUM. -/

namespace Sys2Proof.Machine

/-- R76: `(256 - sum8(s)) mod 256`. -/
def checksumOf (s : Bytes) : Byte := BitVec.ofNat 8 ((256 - (sum8 s).toNat) % 256)

/-- R76 CKSUM. -/
def execCksum (bytes : Bytes) (s : State) : Outcome := .next (s.answer (.checksumByte (checksumOf bytes)))

/-- R77 ZSUM. -/
def execZsum (bytes : Bytes) (s : State) : Outcome := .next (s.answer (.zeroSum (isZeroSum bytes)))

end Sys2Proof.Machine
end

