-- ==== Sys2Proof/Machine/Pgn.lean ====
section
/-! DEFINITION. The PGN arithmetic unit (spec/41_pgn.md): PGNC and PGNS. -/

namespace Sys2Proof.Machine

/-- R80: PDU Format 240 and above is PDU2. -/
def isPdu2 (pf : Byte) : Bool := 240 ≤ pf.toNat

/-- R80: `composePgn`, in 20 bits. The Data Page comes as a byte because a `P_DP_MASK` wider than 0x03 leaves more than two
bits of it (D14, log entry 10); PGNC's own operand is two bits. -/
def composePgn (dp pf ps : Byte) : BitVec 20 :=
  if isPdu2 pf then (dp.setWidth 20 <<< 16) ||| (pf.setWidth 20 <<< 8) ||| ps.setWidth 20
  else (dp.setWidth 20 <<< 16) ||| (pf.setWidth 20 <<< 8)

/-- R82: the split of a PGN into Data Page, PDU Format and PDU Specific. -/
def splitPgn (pgn : BitVec 20) : Except Error (BitVec 2 × Byte × Byte) :=
  if pgn.extractLsb' 18 2 ≠ 0 then .error (.encodeRange .pgn)
  else .ok (pgn.extractLsb' 16 2, pgn.extractLsb' 8 8, pgn.extractLsb' 0 8)

/-- R80 PGNC. -/
def execPgnc (dp : BitVec 2) (pf ps : Byte) (s : State) : Outcome :=
  .next (s.answer (.pgn (composePgn (dp.setWidth 8) pf ps)))

/-- R82 PGNS. -/
def execPgns (pgn : BitVec 20) (s : State) : Outcome :=
  finish (.pgns pgn) (fun x => .split x.1 x.2.1 x.2.2) (splitPgn pgn) s

end Sys2Proof.Machine
end

