-- ==== Sys2Proof/Machine/RecordCodec.lean ====
section
/-! DEFINITION. The BST record codec (spec/42_record_codec.md): RDEC and its four tag rows, ENC93, ENC94, ENCD0. -/

namespace Sys2Proof.Machine

/-- R56: the tag byte of a record type. -/
def recordTag : RecordType → Byte
  | .type93 => TAG93
  | .type94 => TAG94
  | .typeD0 => TAGD0

/-- R87: tag dispatch by exact match. -/
def recordTypeOf (t : Byte) : Option RecordType :=
  if t = TAG93 then some .type93
  else if t = TAG94 then some .type94
  else if t = TAGD0 then some .typeD0
  else none

/-- R85: `lenEnd`, the bytes up to the end of the length field. -/
def lenEnd : RecordType → Nat
  | .type93 => 2
  | .type94 => 2
  | .typeD0 => 3

/-- R16, R85: `H`, the fixed header after tag and length field. -/
def headerSize : RecordType → Nat
  | .type93 => 11
  | .type94 => 6
  | .typeD0 => 10

/-- R85: `L`, the declared length. -/
def declaredLength (rt : RecordType) (f : Frame) : Nat :=
  match rt with
  | .type93 => (byteAt f 1).toNat
  | .type94 => (byteAt f 1).toNat
  | .typeD0 => (le16 f 1).toNat

/-- R60, R88: the byte count that a declared length stands for. -/
def expectedLength (rt : RecordType) (declared : Nat) : Nat :=
  match rt with
  | .type93 => declared + 3
  | .type94 => declared + 3
  | .typeD0 => declared + 1

/-- R66, R93: the declared data length. -/
def declaredData (rt : RecordType) (f : Frame) : Nat :=
  match rt with
  | .type93 => (byteAt f 12).toNat
  | .type94 => (byteAt f 7).toNat
  | .typeD0 => declaredLength rt f - 13

/-- R89: the fields of a Type 0x93 record with n data bytes. -/
def fields93 (p : Params) (f : Frame) (n : Nat) : BstRecord :=
  { recordType := .type93
    pgn := composePgn (byteAt f 5 &&& p.dpMask) (byteAt f 4) (byteAt f 3)
    priority := (byteAt f 2).extractLsb' 0 3
    source := some (byteAt f 7)
    destination := byteAt f 6
    timestamp := some (le32 f 8)
    payloadData := slice f 13 n
    direction := none
    messageClass := none
    sourceOrigin := none
    fastPacketSequence := none }

/-- R90: the fields of a Type 0x94 record with n data bytes. -/
def fields94 (p : Params) (f : Frame) (n : Nat) : BstRecord :=
  { recordType := .type94
    pgn := composePgn (byteAt f 5 &&& p.dpMask) (byteAt f 4) (byteAt f 3)
    priority := (byteAt f 2).extractLsb' 0 3
    source := none
    destination := byteAt f 6
    timestamp := none
    payloadData := slice f 8 n
    direction := none
    messageClass := none
    sourceOrigin := none
    fastPacketSequence := none }

/-- R91: the fields of a Type 0xD0 record with n data bytes; `P_DP_MASK` does not apply. -/
def fieldsD0 (f : Frame) (n : Nat) : BstRecord :=
  { recordType := .typeD0
    pgn := composePgn (byteAt f 7 &&& 3) (byteAt f 6) (byteAt f 5)
    priority := (byteAt f 7).extractLsb' 2 3
    source := some (byteAt f 4)
    destination := byteAt f 3
    timestamp := some (le32 f 9)
    payloadData := slice f 13 n
    direction := some ((byteAt f 8).extractLsb' 3 1)
    messageClass := some ((byteAt f 8).extractLsb' 0 2)
    sourceOrigin := some ((byteAt f 8).extractLsb' 4 1)
    fastPacketSequence := some ((byteAt f 8).extractLsb' 5 3) }

/-- R67: operand assembly, by record type. -/
def recordFields (p : Params) (rt : RecordType) (f : Frame) (n : Nat) : BstRecord :=
  match rt with
  | .type93 => fields93 p f n
  | .type94 => fields94 p f n
  | .typeD0 => fieldsD0 f n

/-- R86: the checks before the tag is looked at; the error of the first that fails. -/
def preliminaryError (f : Frame) : Option Error :=
  if f.length = 0 then some (.payloadTooShort f.length .empty)
  else if sum8 f ≠ 0 then some (.checksum (sum8 f))
  else none

/-- R88, R93: the checks after the tag, and the record. -/
def decodeBody (p : Params) (rt : RecordType) (f : Frame) : Except Error BstRecord :=
  if f.length < lenEnd rt then .error (.payloadTooShort f.length .lengthField)
  else if f.length ≠ expectedLength rt (declaredLength rt f) then
    .error (.lengthMismatch (declaredLength rt f) f.length)
  else if f.length < lenEnd rt + headerSize rt + 1 then .error (.payloadTooShort f.length .header)
  else if declaredData rt f ≠ f.length - (lenEnd rt + headerSize rt + 1) then
    .error (.dataLengthMismatch (declaredData rt f) (f.length - (lenEnd rt + headerSize rt + 1)))
  else .ok (recordFields p rt f (f.length - (lenEnd rt + headerSize rt + 1)))

/-- R85: `BstRecordCodec.decode`; every check in order, the first that fails decides (R125). -/
def decodeRecord (p : Params) (f : Frame) : Except Error BstRecord :=
  match preliminaryError f with
  | some e => .error e
  | none =>
    match recordTypeOf (byteAt f 0) with
    | none => .error (.unsupportedType (byteAt f 0))
    | some rt => decodeBody p rt f

/-- R89 to R91: RDEC of a frame whose tag is that of `rt`. -/
def decodeTagged (p : Params) (rt : RecordType) (f : Frame) : Except Error BstRecord :=
  match preliminaryError f with
  | some e => .error e
  | none => decodeBody p rt f

/-- R92: RDEC of a frame with any other tag. -/
def decodeUnsupported (f : Frame) : Except Error BstRecord :=
  match preliminaryError f with
  | some e => .error e
  | none => .error (.unsupportedType (byteAt f 0))

/-- R98: the checksum byte is computed last, over tag through data. -/
def sealRecord (r : Bytes) : Bytes := r ++ [checksumOf r]

/-- R98: the checks of the encoders, the data length first, then the PGN; `most` is the variant's largest n (R61). -/
def encodeWith (most : Nat) (pgn : BitVec 20) (data : Bytes) (layout : BitVec 2 → Byte → Byte → Bytes) :
    Except Error Bytes :=
  if most < data.length then .error (.encodeRange .data)
  else
    match splitPgn pgn with
    | .error e => .error e
    | .ok (dp, pf, ps) => .ok (sealRecord (layout dp pf ps ++ data))

/-- R95: ENC93's record bytes. -/
def encode93 (pgn : BitVec 20) (priority : BitVec 3) (source destination : Byte) (timestamp : BitVec 32) (data : Bytes) :
    Except Error Bytes :=
  encodeWith 244 pgn data fun dp pf ps =>
    [TAG93, BitVec.ofNat 8 (11 + data.length), priority.setWidth 8, ps, pf, dp.setWidth 8, destination, source]
      ++ le32Bytes timestamp ++ [BitVec.ofNat 8 data.length]

/-- R96: ENC94's record bytes. -/
def encode94 (pgn : BitVec 20) (priority : BitVec 3) (destination : Byte) (data : Bytes) : Except Error Bytes :=
  encodeWith 249 pgn data fun dp pf ps =>
    [TAG94, BitVec.ofNat 8 (6 + data.length), priority.setWidth 8, ps, pf, dp.setWidth 8, destination,
      BitVec.ofNat 8 data.length]

/-- R64: the DPP byte. -/
def dppByte (priority : BitVec 3) (dp : BitVec 2) : Byte := (priority.setWidth 8 <<< 2) ||| dp.setWidth 8

/-- R65: the control byte. -/
def controlByte (direction : BitVec 1) (messageClass : BitVec 2) (sourceOrigin : BitVec 1)
    (fastPacketSequence : BitVec 3) : Byte :=
  messageClass.setWidth 8 ||| (direction.setWidth 8 <<< 3) ||| (sourceOrigin.setWidth 8 <<< 4)
    ||| (fastPacketSequence.setWidth 8 <<< 5)

/-- R97: ENCD0's record bytes. -/
def encodeD0 (pgn : BitVec 20) (priority : BitVec 3) (source destination : Byte) (timestamp : BitVec 32)
    (direction : BitVec 1) (messageClass : BitVec 2) (sourceOrigin : BitVec 1) (fastPacketSequence : BitVec 3)
    (data : Bytes) : Except Error Bytes :=
  encodeWith 65522 pgn data fun dp pf ps =>
    [TAGD0, byteOf (BitVec.ofNat 16 (13 + data.length)) 0, byteOf (BitVec.ofNat 16 (13 + data.length)) 1, destination,
      source, ps, pf, dppByte priority dp, controlByte direction messageClass sourceOrigin fastPacketSequence]
      ++ le32Bytes timestamp

/-- R85 RDEC. -/
def execRdec (f : Frame) (s : State) : Outcome := finish (.rdec f) .record (decodeRecord s.params f) s

/-- R89 DEC93: "RDEC with tag 0x93". -/
def execDec93 (rest : Bytes) (s : State) : Outcome :=
  finish (.rdec (TAG93 :: rest)) .record (decodeTagged s.params .type93 (TAG93 :: rest)) s

/-- R90 DEC94: "RDEC with tag 0x94". -/
def execDec94 (rest : Bytes) (s : State) : Outcome :=
  finish (.rdec (TAG94 :: rest)) .record (decodeTagged s.params .type94 (TAG94 :: rest)) s

/-- R91 DECD0: "RDEC with tag 0xD0". -/
def execDecd0 (rest : Bytes) (s : State) : Outcome :=
  finish (.rdec (TAGD0 :: rest)) .record (decodeTagged s.params .typeD0 (TAGD0 :: rest)) s

/-- R92 DEC_UNSUPPORTED: "RDEC with any other tag". -/
def execDecUnsupported (tag : Byte) (rest : Bytes) (s : State) : Outcome :=
  finish (.rdec (tag :: rest)) .record (decodeUnsupported (tag :: rest)) s

/-- R95 ENC93. -/
def execEnc93 (pgn : BitVec 20) (priority : BitVec 3) (source destination : Byte) (timestamp : BitVec 32) (data : Bytes)
    (s : State) : Outcome :=
  finish (.enc93 pgn priority source destination timestamp data) .encoded
    (encode93 pgn priority source destination timestamp data) s

/-- R96 ENC94. -/
def execEnc94 (pgn : BitVec 20) (priority : BitVec 3) (destination : Byte) (data : Bytes) (s : State) : Outcome :=
  finish (.enc94 pgn priority destination data) .encoded (encode94 pgn priority destination data) s

/-- R97 ENCD0. -/
def execEncd0 (pgn : BitVec 20) (priority : BitVec 3) (source destination : Byte) (timestamp : BitVec 32)
    (direction : BitVec 1) (messageClass : BitVec 2) (sourceOrigin : BitVec 1) (fastPacketSequence : BitVec 3)
    (data : Bytes) (s : State) : Outcome :=
  finish (.encd0 pgn priority source destination timestamp direction messageClass sourceOrigin fastPacketSequence data)
    .encoded
    (encodeD0 pgn priority source destination timestamp direction messageClass sourceOrigin fastPacketSequence data) s

end Sys2Proof.Machine
end

