-- ==== Sys2Proof/Machine/Dispatch.lean ====
section
/-! DEFINITION. One arm per row of spec/opcode_table.json. -/

namespace Sys2Proof.Machine

def exec (i : Instr) (s : State) : Host.Outcome State Fault Refusal :=
  match i with
  -- the commands, R50
  | .cksum bytes => Sys2Proof.Machine.execCksum bytes s
  | .zsum bytes => Sys2Proof.Machine.execZsum bytes s
  | .pgnc dp pf ps => Sys2Proof.Machine.execPgnc dp pf ps s
  | .pgns pgn => Sys2Proof.Machine.execPgns pgn s
  | .rdec f => Sys2Proof.Machine.execRdec f s
  | .enc93 pgn pr src dst ts data => Sys2Proof.Machine.execEnc93 pgn pr src dst ts data s
  | .enc94 pgn pr dst data => Sys2Proof.Machine.execEnc94 pgn pr dst data s
  | .encd0 pgn pr src dst ts dir mc so fps data => Sys2Proof.Machine.execEncd0 pgn pr src dst ts dir mc so fps data s
  | .fdecb k b => Sys2Proof.Machine.execFdecb k b s
  | .fdecc k chunk => Sys2Proof.Machine.execFdecc k chunk s
  | .fenc payload => Sys2Proof.Machine.execFenc payload s
  | .frst k => Sys2Proof.Machine.execFrst k s
  -- the record tags, R56
  | .dec93 rest => Sys2Proof.Machine.execDec93 rest s
  | .dec94 rest => Sys2Proof.Machine.execDec94 rest s
  | .decd0 rest => Sys2Proof.Machine.execDecd0 rest s
  | .decUnsupported tag rest => Sys2Proof.Machine.execDecUnsupported tag rest s
  -- the escape pairs, R54
  | .escDleLiteral k => Sys2Proof.Machine.execEscDleLiteral k s
  | .escEtxEmit k => Sys2Proof.Machine.execEscEtxEmit k s
  | .escStxRestart k => Sys2Proof.Machine.execEscStxRestart k s
  | .escDesync k xx => Sys2Proof.Machine.execEscDesync k xx s
  | .idleDleStxStart k => Sys2Proof.Machine.execIdleDleStxStart k s
  | .idleDleDle k => Sys2Proof.Machine.execIdleDleDle k s
  | .idleDleOther k xx => Sys2Proof.Machine.execIdleDleOther k xx s

end Sys2Proof.Machine
end

