-- ==== Sys2Proof/Machine/Step.lean ====
section
/-! DEFINITION. One step: the block takes the next command the collaborator has issued and runs it as one indivisible
operation (spec/00_scope.md R13, spec/20_memory.md R42). -/

namespace Sys2Proof.Machine

/-- R13, R143: one command. With none waiting the block does nothing: it "never initiates an interaction" and never times
out (R137); log entry 13. -/
def step (s : State) : Host.Outcome State Fault Refusal :=
  match s.inbox with
  | [] => .next s
  | u :: rest =>
    match decode (s.context u.inst).1 (s.context u.inst).2 u with
    | .ok i => exec i (s.withInbox rest)
    | .error e => .refused (refusalOf e)

/-- A table word's instruction placed where `step` takes its next one: the head of the commands waiting (log entries 1, 4). -/
def State.withFetchWord (s : State) (nbits w : Nat) : State :=
  match tableUnit nbits w with
  | none => s
  | some u => s.present nbits u

end Sys2Proof.Machine
end

