-- ==== Sys2Proof/Machine/Pseudo.lean ====
section
/-! DEFINITION. The pseudo-operations of spec/30_encoding.md R71: each is the command sequence it expands to (log entry 16). -/

namespace Sys2Proof.Machine

/-- R71: "If that returns OK with bytes r, it continues with FENC r." -/
def thenFrame (o : Outcome) : Outcome :=
  match o with
  | .next s =>
    match s.outbox.getLast? with
    | some (.encoded r) => execFenc r s
    | _ => .next s
  | .fault r => .fault r
  | .refused r => .refused r

/-- R71 SEND93. -/
def send93 (pgn : BitVec 20) (priority : BitVec 3) (source destination : Byte) (timestamp : BitVec 32) (data : Bytes)
    (s : State) : Outcome :=
  thenFrame (execEnc93 pgn priority source destination timestamp data s)

/-- R71 SEND94. -/
def send94 (pgn : BitVec 20) (priority : BitVec 3) (destination : Byte) (data : Bytes) (s : State) : Outcome :=
  thenFrame (execEnc94 pgn priority destination data s)

/-- R71 SENDD0. -/
def sendD0 (pgn : BitVec 20) (priority : BitVec 3) (source destination : Byte) (timestamp : BitVec 32)
    (direction : BitVec 1) (messageClass : BitVec 2) (sourceOrigin : BitVec 1) (fastPacketSequence : BitVec 3)
    (data : Bytes) (s : State) : Outcome :=
  thenFrame (execEncd0 pgn priority source destination timestamp direction messageClass sourceOrigin fastPacketSequence
    data s)

/-- R71: RDEC for each frame, in emission order. -/
def decodeEach (fs : List Frame) (s : State) : Outcome :=
  match fs with
  | [] => .next s
  | f :: rest =>
    match execRdec f s with
    | .next t => decodeEach rest t
    | .fault r => .fault r
    | .refused r => .refused r

/-- R71 RECV. -/
def recv (i : Nat) (chunk : Bytes) (s : State) : Outcome :=
  match execFdecc i chunk s with
  | .next t =>
    match t.outbox.getLast? with
    | some (.frames fs) => decodeEach fs t
    | _ => .next t
  | .fault r => .fault r
  | .refused r => .refused r

end Sys2Proof.Machine
end

