-- ==== Sys2Proof/Safety.lean ====
section
/-! DEFINITION. What a good state is (spec/10_state.md R21, R28, R29; spec/42_record_codec.md R98), which commands a state
can serve, and which states of an instance are reachable, in the terms the statements use. -/

namespace Sys2Proof.Machine

/-- R11: the sum of the bytes of a sequence, with unbounded width. -/
def byteSum (s : Bytes) : Nat := (s.map BitVec.toNat).sum

/-- R82, R84: what PGNC makes of the fields PGNS splits a PGN into: the PGN itself in PDU2, its low byte cleared in PDU1. -/
def recomposedPgn (pgn : BitVec 20) : BitVec 20 :=
  if 240 ≤ pgn.toNat / 256 % 256 then pgn else pgn &&& 0x3FF00

/-- R40: the buffer can take one more byte. -/
def hasRoom (p : Params) (buf : Bytes) : Prop := ∀ c, p.frameCap = some c → buf.length < c

/-- R21: `Idle` implies an empty buffer, and the buffer is within `P_FRAME_CAP` (R20). -/
def Framer.ok (p : Params) (f : Framer) : Bool :=
  (f.phase == .inFrame || f.buf == []) && p.fits f.buf.length

/-- R29: which fields a record of each type carries. -/
def recordShape (r : BstRecord) : Bool :=
  match r.recordType with
  | .type93 => r.source.isSome && r.timestamp.isSome && r.direction.isNone && r.messageClass.isNone
      && r.sourceOrigin.isNone && r.fastPacketSequence.isNone
  | .type94 => r.source.isNone && r.timestamp.isNone && r.direction.isNone && r.messageClass.isNone
      && r.sourceOrigin.isNone && r.fastPacketSequence.isNone
  | .typeD0 => r.source.isSome && r.timestamp.isSome && r.direction.isSome && r.messageClass.isSome
      && r.sourceOrigin.isSome && r.fastPacketSequence.isSome

/-- What every result bundle obeys: a frame is within `P_FRAME_CAP` (R28), a record carries its type's fields (R29), record
bytes an encoder returns sum to zero (R98 item 3), a checksum error records a non-zero sum (R117). -/
def Result.ok (p : Params) (r : Result) : Bool :=
  match r with
  | .frames fs => fs.all (fun f => p.fits f.length)
  | .record rec => recordShape rec
  | .encoded bs => sum8 bs == 0
  | .error (.checksum sum) _ => sum != 0
  | _ => true

/-- The invariant: at least one instance (R131) and a capacity of at least 1 (R8), every instance in a state of R21, every
result as R28, R29 and R98 say. -/
def State.inv (s : State) : Bool :=
  s.params.ok && !s.framers.isEmpty && s.framers.all (Framer.ok s.params) && s.outbox.all (Result.ok s.params)

end Sys2Proof.Machine

namespace Sys2Proof

/-- The instance an instruction names, if it names one (R50). -/
def Instr.framer? : Instr → Option Nat
  | .cksum _ => none
  | .zsum _ => none
  | .pgnc _ _ _ => none
  | .pgns _ => none
  | .rdec _ => none
  | .enc93 _ _ _ _ _ _ => none
  | .enc94 _ _ _ _ => none
  | .encd0 _ _ _ _ _ _ _ _ _ _ => none
  | .fdecb i _ => some i
  | .fdecc i _ => some i
  | .fenc _ => none
  | .frst i => some i
  | .dec93 _ => none
  | .dec94 _ => none
  | .decd0 _ => none
  | .decUnsupported _ _ => none
  | .escDleLiteral i => some i
  | .escEtxEmit i => some i
  | .escStxRestart i => some i
  | .escDesync i _ => some i
  | .idleDleStxStart i => some i
  | .idleDleDle i => some i
  | .idleDleOther i _ => some i

end Sys2Proof

namespace Sys2Proof.Machine

/-- R131: the instance an instruction names is one of the block's. -/
def State.serves (s : State) (i : Instr) : Bool :=
  match i.framer? with
  | none => true
  | some k => k < s.framers.length

end Sys2Proof.Machine
end

