-- ==== Sys2Proof/Certificates/Slice0/Obligations.lean ====
section
/-! DEFINITION. The statements for the provers. A next state written `{ s with … }` is the whole frame: every field not named
is unchanged (the parameters, every instance but the one set, the commands waiting, the results already returned). The block
has no addressed memory (spec/20_memory.md R44), so no frame speaks of one. -/

open Sys2Proof Sys2Proof.Machine

/-! ### The step, decoding and encoding -/

/-- R13, R50, R54, R56: a step takes the first unit waiting and is `exec` of what it decodes to, the rest still waiting. A
pair is decoded in the phase and pending escape of the instance its unit names. -/
def Obligations.StepRunsTheDecodedInstruction : Prop :=
  ∀ (s : State) (u : Input) (rest : List Input) (i : Instr),
    s.inbox = u :: rest → decode (s.context u.inst).1 (s.context u.inst).2 u = .ok i → i.wellFormed = true →
    step s = exec i { s with inbox := rest }

/-- R52. -/
def Obligations.StepRefusesUnknownSelector : Prop :=
  ∀ (s : State) (k : Nat) (op : Byte) (operands : Bytes) (rest : List Input),
    s.inbox = { port := .command, inst := k, bytes := op :: operands } :: rest →
    op ∉ [0x01, 0x02, 0x03, 0x04, 0x10, 0x13, 0x14, 0x1D, 0x20, 0x21, 0x22, 0x2F] →
    step s = .refused (.unknownSelector op)

/-- The model's choice (log entry 13), from "The block never initiates an interaction" (spec/70_reset_and_hazards.md R143). -/
def Obligations.StepWithNothingIssuedKeepsTheState : Prop :=
  ∀ s : State, s.inbox = [] → step s = .next s

/-- R50, R54, R56 with the model's operand layout (log entry 2): decoding an encoded well-formed instruction gives it back,
with every operand at every value, in every phase its row stands in. -/
def Obligations.DecodeOfEncodeIsTheInstruction : Prop :=
  ∀ (i : Instr) (ph : Phase) (esc : Bool), i.wellFormed = true → i.standsIn ph esc = true →
    decode ph esc (encode i) = .ok i

/-- Whatever decoding answers is well formed and stands in the phase it was read in; on the command port no bit is dropped:
the bytes are those of its encoding (log entry 2). -/
def Obligations.DecodedCommandGivesItsBytesBack : Prop :=
  ∀ (ph : Phase) (esc : Bool) (u : Input) (i : Instr), decode ph esc u = .ok i →
    i.wellFormed = true ∧ i.standsIn ph esc = true
      ∧ (u.port = .command → (encode i).port = .command ∧ (encode i).bytes = u.bytes)

/-- R50, R54, R56: a few words, written out. -/
def Obligations.WordsOfTheTablesDecode : Prop :=
  decode .idle false { port := .command, inst := 0, bytes := [0x01, 0xFF] } = .ok (.cksum [0xFF])
    ∧ decode .idle false { port := .command, inst := 0, bytes := [0x04, 0x01, 0xF8, 0x01] } = .ok (.pgns 0x1F801)
    ∧ decode .idle false { port := .command, inst := 1, bytes := [0x21, 0x10, 0x02] } = .ok (.fdecc 1 [0x10, 0x02])
    ∧ decode .idle false { port := .record, inst := 0, bytes := [0x95, 0x6B] } = .ok (.decUnsupported 0x95 [0x6B])
    ∧ decode .inFrame false { port := .stream, inst := 0, bytes := [0x10, 0x03] } = .ok (.escEtxEmit 0)
    ∧ decode .idle false { port := .stream, inst := 0, bytes := [0x10, 0x03] } = .ok (.idleDleOther 0 0x03)

/-! ### Reset, invariant, frames of the whole machine -/

/-- R32: the reset values of every field of every instance, however many are made and whatever the parameters. -/
def Obligations.ResetLeavesEveryInstanceIdleAndEmpty : Prop :=
  ∀ (p : Params) (n k : Nat), k < n →
    (State.make p n).framers[k]? = some { phase := .idle, esc := false, buf := [] }

/-- The invariant of `Sys2Proof.Machine.State.inv` at reset. The two instances and the unbounded capacity are the model's
choices (log entries 7, 8). -/
def Obligations.InvariantHoldsAtReset : Prop := State.reset.inv = true

/-- R21, R28, R29, R98: from every state that meets it, whatever is waiting. -/
def Obligations.EveryStepKeepsTheInvariant : Prop :=
  ∀ s t : State, s.inv = true → step s = .next t → t.inv = true

/-- "Hence the reachable states are exactly these" (spec/10_state.md §1): an instance just made reaches exactly the states
in which Idle implies an empty buffer and the buffer is within the capacity. -/
def Obligations.ReachableFramerStatesAreExactlyTheLegalOnes : Prop :=
  ∀ (p : Params) (f : Framer), Framer.ok p f = true ↔
    ∃ (chunk : Bytes) (t : State), exec (.fdecc 0 chunk) (State.make p 1) = .next t ∧ t.framers = [f]

/-- R25: the parameters and the number of instances never change. -/
def Obligations.NoStepChangesTheParameters : Prop :=
  ∀ s t : State, step s = .next t → t.params = s.params ∧ t.framers.length = s.framers.length

/-- R131, R22: an operation leaves every instance but the one it names as it was; one that names none leaves all. -/
def Obligations.OtherInstancesAreUntouched : Prop :=
  ∀ (i : Instr) (s t : State) (k : Nat), exec i s = .next t → i.framer? ≠ some k → t.framers[k]? = s.framers[k]?

/-- R26 of the checksum, PGN and record units, R22 of FENC: the result of a stateless operation is a function of its operands
(and the fixed parameters) alone. That the two bundles agree in an error's message text too is no rule of the spec, which
lets the text be any value (I3, D19): it is the model's reading, DEDUCED, log entry 14. -/
def Obligations.StatelessResultsDependOnOperandsAlone : Prop :=
  ∀ (i : Instr) (s s' : State), i.framer? = none → s.params = s'.params →
    ∃ r : Result, exec i s = .next { s with outbox := s.outbox ++ [r] }
      ∧ exec i s' = .next { s' with outbox := s'.outbox ++ [r] }

/-- R50, R144: an operation that completes returns exactly one result bundle, after those before it, and takes no command
that is waiting. -/
def Obligations.EveryOperationReturnsOneBundle : Prop :=
  ∀ (i : Instr) (s t : State), exec i s = .next t →
    t.inbox = s.inbox ∧ ∃ r : Result, t.outbox = s.outbox ++ [r]

/-- An operation completes exactly where the instance it names exists, and otherwise stops by name; `exec` refuses nothing.
The stop is the model's choice (log entry 11). -/
def Obligations.ExecCompletesExactlyWhereTheInstanceExists : Prop :=
  ∀ (i : Instr) (s : State),
    (s.serves i = true → ∃ t, exec i s = .next t)
      ∧ (s.serves i = false → ∃ k, i.framer? = some k ∧ exec i s = .fault (.noSuchInstance k))

/-- R116: an operation that returns an error returns nothing else and writes no state, and it is no operation of the
framer. -/
def Obligations.ErrorsWriteNoState : Prop :=
  ∀ (i : Instr) (s t : State) (e : Error) (text : String),
    exec i s = .next t → t.outbox = s.outbox ++ [.error e text] →
    t = { s with outbox := s.outbox ++ [.error e text] } ∧ i.framer? = none ∧ ∀ payload, i ≠ .fenc payload

/-! ### The checksum unit -/

/-- R76. -/
def Obligations.CksumReturnsTheAdditiveInverse : Prop :=
  ∀ (bytes : Bytes) (s : State),
    exec (.cksum bytes) s =
      .next { s with outbox := s.outbox ++ [.checksumByte (BitVec.ofNat 8 (256 - byteSum bytes % 256))] }

/-- R77. -/
def Obligations.ZsumTestsTheSum : Prop :=
  ∀ (bytes : Bytes) (s : State),
    exec (.zsum bytes) s =
      .next { s with outbox := s.outbox ++ [.zeroSum (if byteSum bytes % 256 = 0 then 1 else 0)] }

/-- R76, R77, spec/40_checksum.md: the byte CKSUM returns closes the sum, and is 0 exactly where the sum is closed. -/
def Obligations.ChecksumByteClosesTheSum : Prop :=
  ∀ (bytes : Bytes) (s : State), ∃ c : Byte,
    exec (.cksum bytes) s = .next { s with outbox := s.outbox ++ [.checksumByte c] }
      ∧ exec (.zsum (bytes ++ [c])) s = .next { s with outbox := s.outbox ++ [.zeroSum 1] }
      ∧ (exec (.zsum bytes) s = .next { s with outbox := s.outbox ++ [.zeroSum 1] } ↔ c = 0)

/-! ### The PGN unit -/

/-- R80. -/
def Obligations.PgncComposesThePgn : Prop :=
  ∀ (dp : BitVec 2) (pf ps : Byte) (s : State),
    exec (.pgnc dp pf ps) s =
      .next { s with outbox := s.outbox ++ [.pgn (BitVec.ofNat 20
        (dp.toNat * 65536 + pf.toNat * 256 + if 240 ≤ pf.toNat then ps.toNat else 0))] }

/-- R80, spec/41_pgn.md: PGNC's range, and what is fixed of its result in PDU1 and in PDU2. -/
def Obligations.PgncResultsStayInRange : Prop :=
  ∀ (dp : BitVec 2) (pf ps : Byte) (s : State), ∃ q : BitVec 20,
    exec (.pgnc dp pf ps) s = .next { s with outbox := s.outbox ++ [.pgn q] }
      ∧ q.toNat ≤ 0x3FFFF ∧ (pf.toNat < 240 → q.toNat % 256 = 0) ∧ (240 ≤ pf.toNat → q.toNat / 4096 % 16 = 15)

/-- R82. -/
def Obligations.PgnsSplitsOrRaises : Prop :=
  ∀ (pgn : BitVec 20) (s : State),
    exec (.pgns pgn) s =
      if 0x3FFFF < pgn.toNat then
        .next { s with outbox := s.outbox ++ [.error (.encodeRange .pgn) (Config.diagnosticText (.pgns pgn))] }
      else
        .next { s with outbox := s.outbox ++ [.split (BitVec.ofNat 2 (pgn.toNat / 65536))
          (BitVec.ofNat 8 (pgn.toNat / 256)) (BitVec.ofNat 8 pgn.toNat)] }

/-- R80, R82, spec/41_pgn.md: the three round-trip laws: exact in PDU2, the low byte lost in PDU1. -/
def Obligations.PgnRoundTripLaws : Prop :=
  (∀ (pgn : BitVec 20) (s : State), pgn.toNat ≤ 0x3FFFF → ∃ (dp : BitVec 2) (pf ps : Byte),
    exec (.pgns pgn) s = .next { s with outbox := s.outbox ++ [.split dp pf ps] }
      ∧ exec (.pgnc dp pf ps) s = .next { s with outbox := s.outbox ++ [.pgn (recomposedPgn pgn)] })
  ∧ (∀ (dp : BitVec 2) (pf ps : Byte) (s : State), ∃ q : BitVec 20,
    exec (.pgnc dp pf ps) s = .next { s with outbox := s.outbox ++ [.pgn q] }
      ∧ exec (.pgns q) s =
        .next { s with outbox := s.outbox ++ [.split dp pf (if 240 ≤ pf.toNat then ps else 0)] })

/-! ### Record decode -/

/-- spec/42_record_codec.md §1, §2: RDEC of a frame is the row its tag byte selects (an empty frame has none and stays
RDEC's). R87 dispatches only a frame that passes R86, and the operands of R89 to R92 are frames that pass the checks before
them. That a row is RDEC on every other frame with its tag is the model's reading (DEDUCED, log entry 22), and so is that a
row's error carries RDEC's message text (DEDUCED, log entry 14). -/
def Obligations.RdecRunsTheRowOfItsTag : Prop :=
  ∀ (f : Frame) (s : State), exec (.rdec f) s = exec (decodeTag f) s

/-- R118. -/
def Obligations.UnsupportedTypeErrorExactlyWhereNoTagMatches : Prop :=
  ∀ (f : Frame) (tag : Byte) (s : State),
    exec (.rdec f) s =
        .next { s with outbox := s.outbox ++ [.error (.unsupportedType tag) (Config.diagnosticText (.rdec f))] }
      ↔ f.head? = some tag ∧ byteSum f % 256 = 0 ∧ tag ∉ [0x93, 0x94, 0xD0]

/-- R119: whatever the tag and length. -/
def Obligations.ChecksumErrorExactlyWhereTheSumIsNotZero : Prop :=
  ∀ (f : Frame) (sum : Byte) (s : State),
    exec (.rdec f) s =
        .next { s with outbox := s.outbox ++ [.error (.checksum sum) (Config.diagnosticText (.rdec f))] }
      ↔ f ≠ [] ∧ byteSum f % 256 ≠ 0 ∧ sum.toNat = byteSum f % 256

/-- R120. -/
def Obligations.LengthMismatchErrorExactlyWhereTheLengthDisagrees : Prop :=
  ∀ (f : Frame) (declared actual : Nat) (s : State),
    exec (.rdec f) s =
        .next { s with outbox := s.outbox ++
          [.error (.lengthMismatch declared actual) (Config.diagnosticText (.rdec f))] }
      ↔ byteSum f % 256 = 0 ∧ actual = f.length
        ∧ ((∃ (l : Byte) (rest : Bytes), (f = 0x93 :: l :: rest ∨ f = 0x94 :: l :: rest)
              ∧ declared = l.toNat ∧ f.length ≠ l.toNat + 3)
          ∨ (∃ (l0 l1 : Byte) (rest : Bytes), f = 0xD0 :: l0 :: l1 :: rest
              ∧ declared = l0.toNat + 256 * l1.toNat ∧ f.length ≠ l0.toNat + 256 * l1.toNat + 1))

/-- R121: the three places, each with the check it records. -/
def Obligations.PayloadTooShortErrorExactlyInItsThreePlaces : Prop :=
  ∀ (f : Frame) (actual : Nat) (check : ShortCheck) (s : State),
    exec (.rdec f) s =
        .next { s with outbox := s.outbox ++
          [.error (.payloadTooShort actual check) (Config.diagnosticText (.rdec f))] }
      ↔ byteSum f % 256 = 0 ∧ actual = f.length
        ∧ ((check = .empty ∧ f = [])
          ∨ (check = .lengthField ∧ (f = [0x93] ∨ f = [0x94] ∨ f = [0xD0] ∨ ∃ l0 : Byte, f = [0xD0, l0]))
          ∨ (check = .header ∧
            ((∃ (l : Byte) (rest : Bytes), f = 0x93 :: l :: rest ∧ f.length = l.toNat + 3 ∧ f.length < 14)
            ∨ (∃ (l : Byte) (rest : Bytes), f = 0x94 :: l :: rest ∧ f.length = l.toNat + 3 ∧ f.length < 9)
            ∨ (∃ (l0 l1 : Byte) (rest : Bytes), f = 0xD0 :: l0 :: l1 :: rest
                ∧ f.length = l0.toNat + 256 * l1.toNat + 1 ∧ f.length < 14))))

/-- R122: in 0x93 and 0x94 only; it never occurs for 0xD0. -/
def Obligations.DataLengthMismatchErrorExactlyWhereTheDataDisagrees : Prop :=
  ∀ (f : Frame) (declared actual : Nat) (s : State),
    exec (.rdec f) s =
        .next { s with outbox := s.outbox ++
          [.error (.dataLengthMismatch declared actual) (Config.diagnosticText (.rdec f))] }
      ↔ byteSum f % 256 = 0 ∧ declared ≠ actual
        ∧ ∃ (tag l d : Byte), f[0]? = some tag ∧ f[1]? = some l ∧ f.length = l.toNat + 3 ∧ declared = d.toNat
          ∧ ((tag = 0x93 ∧ f[12]? = some d ∧ f.length = actual + 14)
            ∨ (tag = 0x94 ∧ f[7]? = some d ∧ f.length = actual + 9))

/-- R89: a frame of the 0x93 layout whose sum and length agree, through DEC93 and through RDEC: its fields, or
DataLengthMismatchError. Reserved bits of the priority byte are not looked at; the DP byte is masked with `P_DP_MASK`. -/
def Obligations.Dec93ReadsTheFields : Prop :=
  ∀ (s : State) (l pr ps pf dp dst src t0 t1 t2 t3 dlen ck : Byte) (data rest : Bytes),
    rest = [l, pr, ps, pf, dp, dst, src, t0, t1, t2, t3, dlen] ++ data ++ [ck] →
    byteSum (0x93 :: rest) % 256 = 0 → l.toNat = 11 + data.length →
    exec (.dec93 rest) s = exec (.rdec (0x93 :: rest)) s
      ∧ exec (.dec93 rest) s =
        .next { s with outbox := s.outbox ++ [
          if dlen.toNat = data.length then
            .record { recordType := .type93
                      pgn := BitVec.ofNat 20 ((dp &&& s.params.dpMask).toNat * 65536 + pf.toNat * 256
                        + if 240 ≤ pf.toNat then ps.toNat else 0)
                      priority := BitVec.ofNat 3 pr.toNat
                      source := some src
                      destination := dst
                      timestamp := some (BitVec.ofNat 32
                        (t0.toNat + t1.toNat * 256 + t2.toNat * 65536 + t3.toNat * 16777216))
                      payloadData := data
                      direction := none
                      messageClass := none
                      sourceOrigin := none
                      fastPacketSequence := none }
          else .error (.dataLengthMismatch dlen.toNat data.length) (Config.diagnosticText (.rdec (0x93 :: rest)))] }

/-- R90: the same of the 0x94 layout; no source, no timestamp. -/
def Obligations.Dec94ReadsTheFields : Prop :=
  ∀ (s : State) (l pr ps pf dp dst dlen ck : Byte) (data rest : Bytes),
    rest = [l, pr, ps, pf, dp, dst, dlen] ++ data ++ [ck] →
    byteSum (0x94 :: rest) % 256 = 0 → l.toNat = 6 + data.length →
    exec (.dec94 rest) s = exec (.rdec (0x94 :: rest)) s
      ∧ exec (.dec94 rest) s =
        .next { s with outbox := s.outbox ++ [
          if dlen.toNat = data.length then
            .record { recordType := .type94
                      pgn := BitVec.ofNat 20 ((dp &&& s.params.dpMask).toNat * 65536 + pf.toNat * 256
                        + if 240 ≤ pf.toNat then ps.toNat else 0)
                      priority := BitVec.ofNat 3 pr.toNat
                      source := none
                      destination := dst
                      timestamp := none
                      payloadData := data
                      direction := none
                      messageClass := none
                      sourceOrigin := none
                      fastPacketSequence := none }
          else .error (.dataLengthMismatch dlen.toNat data.length) (Config.diagnosticText (.rdec (0x94 :: rest)))] }

/-- R91: a frame of the 0xD0 layout whose sum and 16-bit length agree always decodes; `P_DP_MASK` does not apply. -/
def Obligations.Decd0ReadsTheFields : Prop :=
  ∀ (s : State) (l0 l1 dst src ps pf dpp ctl t0 t1 t2 t3 ck : Byte) (data rest : Bytes),
    rest = [l0, l1, dst, src, ps, pf, dpp, ctl, t0, t1, t2, t3] ++ data ++ [ck] →
    byteSum (0xD0 :: rest) % 256 = 0 → l0.toNat + 256 * l1.toNat = 13 + data.length →
    exec (.decd0 rest) s = exec (.rdec (0xD0 :: rest)) s
      ∧ exec (.decd0 rest) s =
        .next { s with outbox := s.outbox ++ [
          .record { recordType := .typeD0
                    pgn := BitVec.ofNat 20 (dpp.toNat % 4 * 65536 + pf.toNat * 256
                      + if 240 ≤ pf.toNat then ps.toNat else 0)
                    priority := BitVec.ofNat 3 (dpp.toNat / 4)
                    source := some src
                    destination := dst
                    timestamp := some (BitVec.ofNat 32
                      (t0.toNat + t1.toNat * 256 + t2.toNat * 65536 + t3.toNat * 16777216))
                    payloadData := data
                    direction := some (BitVec.ofNat 1 (ctl.toNat / 8))
                    messageClass := some (BitVec.ofNat 2 ctl.toNat)
                    sourceOrigin := some (BitVec.ofNat 1 (ctl.toNat / 16))
                    fastPacketSequence := some (BitVec.ofNat 3 (ctl.toNat / 32)) }] }

/-- R92: any other tag, sum zero. -/
def Obligations.DecUnsupportedAlwaysRaises : Prop :=
  ∀ (s : State) (tag : Byte) (rest : Bytes), tag ∉ [0x93, 0x94, 0xD0] → byteSum (tag :: rest) % 256 = 0 →
    exec (.decUnsupported tag rest) s =
      .next { s with outbox := s.outbox ++
        [.error (.unsupportedType tag) (Config.diagnosticText (.rdec (tag :: rest)))] }

/-! ### Record encode -/

/-- R95. -/
def Obligations.Enc93WritesTheRecord : Prop :=
  ∀ (pgn : BitVec 20) (pr : BitVec 3) (src dst : Byte) (ts : BitVec 32) (data r : Bytes) (s : State),
    r = [0x93, BitVec.ofNat 8 (11 + data.length), BitVec.ofNat 8 pr.toNat, BitVec.ofNat 8 pgn.toNat,
        BitVec.ofNat 8 (pgn.toNat / 256), BitVec.ofNat 8 (pgn.toNat / 65536), dst, src, BitVec.ofNat 8 ts.toNat,
        BitVec.ofNat 8 (ts.toNat / 256), BitVec.ofNat 8 (ts.toNat / 65536), BitVec.ofNat 8 (ts.toNat / 16777216),
        BitVec.ofNat 8 data.length] ++ data →
    exec (.enc93 pgn pr src dst ts data) s =
      .next { s with outbox := s.outbox ++ [
        if 244 < data.length then
          .error (.encodeRange .data) (Config.diagnosticText (.enc93 pgn pr src dst ts data))
        else if 0x3FFFF < pgn.toNat then
          .error (.encodeRange .pgn) (Config.diagnosticText (.enc93 pgn pr src dst ts data))
        else .encoded (r ++ [BitVec.ofNat 8 (256 - byteSum r % 256)])] }

/-- R96. -/
def Obligations.Enc94WritesTheRecord : Prop :=
  ∀ (pgn : BitVec 20) (pr : BitVec 3) (dst : Byte) (data r : Bytes) (s : State),
    r = [0x94, BitVec.ofNat 8 (6 + data.length), BitVec.ofNat 8 pr.toNat, BitVec.ofNat 8 pgn.toNat,
        BitVec.ofNat 8 (pgn.toNat / 256), BitVec.ofNat 8 (pgn.toNat / 65536), dst, BitVec.ofNat 8 data.length] ++ data →
    exec (.enc94 pgn pr dst data) s =
      .next { s with outbox := s.outbox ++ [
        if 249 < data.length then .error (.encodeRange .data) (Config.diagnosticText (.enc94 pgn pr dst data))
        else if 0x3FFFF < pgn.toNat then
          .error (.encodeRange .pgn) (Config.diagnosticText (.enc94 pgn pr dst data))
        else .encoded (r ++ [BitVec.ofNat 8 (256 - byteSum r % 256)])] }

/-- R97, with the packed bytes of R64 and R65. -/
def Obligations.Encd0WritesTheRecord : Prop :=
  ∀ (pgn : BitVec 20) (pr : BitVec 3) (src dst : Byte) (ts : BitVec 32) (dir : BitVec 1) (mc : BitVec 2)
    (so : BitVec 1) (fps : BitVec 3) (data r : Bytes) (s : State),
    r = [0xD0, BitVec.ofNat 8 (13 + data.length), BitVec.ofNat 8 ((13 + data.length) / 256), dst, src,
        BitVec.ofNat 8 pgn.toNat, BitVec.ofNat 8 (pgn.toNat / 256),
        BitVec.ofNat 8 (pr.toNat * 4 + pgn.toNat / 65536),
        BitVec.ofNat 8 (mc.toNat + dir.toNat * 8 + so.toNat * 16 + fps.toNat * 32), BitVec.ofNat 8 ts.toNat,
        BitVec.ofNat 8 (ts.toNat / 256), BitVec.ofNat 8 (ts.toNat / 65536), BitVec.ofNat 8 (ts.toNat / 16777216)]
        ++ data →
    exec (.encd0 pgn pr src dst ts dir mc so fps data) s =
      .next { s with outbox := s.outbox ++ [
        if 65522 < data.length then
          .error (.encodeRange .data) (Config.diagnosticText (.encd0 pgn pr src dst ts dir mc so fps data))
        else if 0x3FFFF < pgn.toNat then
          .error (.encodeRange .pgn) (Config.diagnosticText (.encd0 pgn pr src dst ts dir mc so fps data))
        else .encoded (r ++ [BitVec.ofNat 8 (256 - byteSum r % 256)])] }

/-- spec/42_record_codec.md §3, with `P_DP_MASK = 0x03`: every record ENC93 returns passes ZSUM and decodes to its operands,
the PGN recomposed. -/
def Obligations.Enc93ThenRdecRecoversTheFields : Prop :=
  ∀ (s : State) (pgn : BitVec 20) (pr : BitVec 3) (src dst : Byte) (ts : BitVec 32) (data : Bytes),
    s.params.dpMask = 0x03 → data.length ≤ 244 → pgn.toNat ≤ 0x3FFFF →
    ∃ bytes : Bytes, bytes.length = 14 + data.length
      ∧ exec (.enc93 pgn pr src dst ts data) s = .next { s with outbox := s.outbox ++ [.encoded bytes] }
      ∧ exec (.zsum bytes) s = .next { s with outbox := s.outbox ++ [.zeroSum 1] }
      ∧ exec (.rdec bytes) s = .next { s with outbox := s.outbox ++ [.record
          { recordType := .type93, pgn := recomposedPgn pgn, priority := pr, source := some src, destination := dst,
            timestamp := some ts, payloadData := data, direction := none, messageClass := none, sourceOrigin := none,
            fastPacketSequence := none }] }

/-- The same of ENC94. -/
def Obligations.Enc94ThenRdecRecoversTheFields : Prop :=
  ∀ (s : State) (pgn : BitVec 20) (pr : BitVec 3) (dst : Byte) (data : Bytes),
    s.params.dpMask = 0x03 → data.length ≤ 249 → pgn.toNat ≤ 0x3FFFF →
    ∃ bytes : Bytes, bytes.length = 9 + data.length
      ∧ exec (.enc94 pgn pr dst data) s = .next { s with outbox := s.outbox ++ [.encoded bytes] }
      ∧ exec (.zsum bytes) s = .next { s with outbox := s.outbox ++ [.zeroSum 1] }
      ∧ exec (.rdec bytes) s = .next { s with outbox := s.outbox ++ [.record
          { recordType := .type94, pgn := recomposedPgn pgn, priority := pr, source := none, destination := dst,
            timestamp := none, payloadData := data, direction := none, messageClass := none, sourceOrigin := none,
            fastPacketSequence := none }] }

/-- The same of ENCD0, whatever `P_DP_MASK` is. -/
def Obligations.Encd0ThenRdecRecoversTheFields : Prop :=
  ∀ (s : State) (pgn : BitVec 20) (pr : BitVec 3) (src dst : Byte) (ts : BitVec 32) (dir : BitVec 1) (mc : BitVec 2)
    (so : BitVec 1) (fps : BitVec 3) (data : Bytes), data.length ≤ 65522 → pgn.toNat ≤ 0x3FFFF →
    ∃ bytes : Bytes, bytes.length = 14 + data.length
      ∧ exec (.encd0 pgn pr src dst ts dir mc so fps data) s =
        .next { s with outbox := s.outbox ++ [.encoded bytes] }
      ∧ exec (.zsum bytes) s = .next { s with outbox := s.outbox ++ [.zeroSum 1] }
      ∧ exec (.rdec bytes) s = .next { s with outbox := s.outbox ++ [.record
          { recordType := .typeD0, pgn := recomposedPgn pgn, priority := pr, source := some src, destination := dst,
            timestamp := some ts, payloadData := data, direction := some dir, messageClass := some mc,
            sourceOrigin := some so, fastPacketSequence := some fps }] }

/-! ### The framer, one byte -/

/-- R103: the five idle transitions, under both values of `P_IDLE_DLE_DLE`. -/
def Obligations.IdleTransitions : Prop :=
  ∀ (s : State) (i : Nat) (f : Framer) (b : Byte), s.framers[i]? = some f → f.phase = .idle →
    exec (.fdecb i b) s =
      .next { s with
        framers := s.framers.set i (
          if f.esc = false then (if b = 0x10 then { f with esc := true } else f)
          else if b = 0x02 then { phase := .inFrame, esc := false, buf := [] }
          else if b = 0x10 then { f with esc := decide (s.params.idleDleDle = .keep) }
          else { f with esc := false })
        outbox := s.outbox ++ [.frames []] }

/-- R104, R109: in a frame with no escape pending, a DLE sets the flag; any other byte is appended, or aborts the frame where
the buffer is full. -/
def Obligations.InFrameBytesAreAppended : Prop :=
  ∀ (s : State) (i : Nat) (f : Framer) (b : Byte),
    s.framers[i]? = some f → f.phase = .inFrame → f.esc = false →
    (b = 0x10 → exec (.fdecb i b) s =
      .next { s with framers := s.framers.set i { f with esc := true }, outbox := s.outbox ++ [.frames []] })
    ∧ (b ≠ 0x10 → hasRoom s.params f.buf → exec (.fdecb i b) s =
      .next { s with framers := s.framers.set i { f with buf := f.buf ++ [b] }, outbox := s.outbox ++ [.frames []] })
    ∧ (b ≠ 0x10 → ¬ hasRoom s.params f.buf → exec (.fdecb i b) s =
      .next { s with framers := s.framers.set i { phase := .idle, esc := false, buf := [] },
                     outbox := s.outbox ++ [.frames []] })

/-- R105, R109: a doubled DLE is one literal 0x10, or aborts the frame where the buffer is full. -/
def Obligations.DoubledDleIsOneLiteralByte : Prop :=
  ∀ (s : State) (i : Nat) (f : Framer), s.framers[i]? = some f → f.phase = .inFrame → f.esc = true →
    (hasRoom s.params f.buf → exec (.fdecb i 0x10) s =
      .next { s with framers := s.framers.set i { phase := .inFrame, esc := false, buf := f.buf ++ [0x10] },
                     outbox := s.outbox ++ [.frames []] })
    ∧ (¬ hasRoom s.params f.buf → exec (.fdecb i 0x10) s =
      .next { s with framers := s.framers.set i { phase := .idle, esc := false, buf := [] },
                     outbox := s.outbox ++ [.frames []] })

/-- R106: the buffer as it stood is emitted, empty or not, and the instance is idle with an empty buffer. -/
def Obligations.DleEtxEmitsTheFrame : Prop :=
  ∀ (s : State) (i : Nat) (f : Framer), s.framers[i]? = some f → f.phase = .inFrame → f.esc = true →
    exec (.fdecb i 0x03) s =
      .next { s with framers := s.framers.set i { phase := .idle, esc := false, buf := [] },
                     outbox := s.outbox ++ [.frames [f.buf]] }

/-- R107: the buffer is discarded, a new frame starts, nothing is reported. -/
def Obligations.DleStxRestartsTheFrame : Prop :=
  ∀ (s : State) (i : Nat) (f : Framer), s.framers[i]? = some f → f.phase = .inFrame → f.esc = true →
    exec (.fdecb i 0x02) s =
      .next { s with framers := s.framers.set i { phase := .inFrame, esc := false, buf := [] },
                     outbox := s.outbox ++ [.frames []] }

/-- R108: the frame is discarded silently and the instance is idle. -/
def Obligations.InvalidEscapeAbortsTheFrame : Prop :=
  ∀ (s : State) (i : Nat) (f : Framer) (b : Byte), s.framers[i]? = some f → f.phase = .inFrame → f.esc = true →
    b ≠ 0x10 → b ≠ 0x03 → b ≠ 0x02 →
    exec (.fdecb i b) s =
      .next { s with framers := s.framers.set i { phase := .idle, esc := false, buf := [] },
                     outbox := s.outbox ++ [.frames []] }

/-- R115: FDECB and FDECC report only frames, and FDECB's bundle is empty except where a pending DLE meets an ETX in a frame.
What it is there is `Obligations.DleEtxEmitsTheFrame`'s to say: this statement does not exclude an empty bundle there. -/
def Obligations.TheFramerReportsOnlyFrames : Prop :=
  (∀ (s : State) (i : Nat) (f : Framer) (b : Byte), s.framers[i]? = some f → ∃ (f' : Framer) (fs : List Frame),
    exec (.fdecb i b) s =
        .next { s with framers := s.framers.set i f', outbox := s.outbox ++ [.frames fs] }
      ∧ (fs = [] ∨ (f.phase = .inFrame ∧ f.esc = true ∧ b = 0x03 ∧ fs = [f.buf])))
  ∧ (∀ (s : State) (i : Nat) (f : Framer) (chunk : Bytes), s.framers[i]? = some f →
    ∃ (f' : Framer) (fs : List Frame), exec (.fdecc i chunk) s =
      .next { s with framers := s.framers.set i f', outbox := s.outbox ++ [.frames fs] })

/-! ### The framer, chunks, frames and teardown -/

/-- R110: FDECC of an empty chunk changes nothing and returns no frame; of a longer one it is FDECB of the first byte, then
FDECC of the rest, the frames in completion order. -/
def Obligations.FdeccFoldsFdecbOverTheChunk : Prop :=
  (∀ (s : State) (i : Nat) (f : Framer), s.framers[i]? = some f →
    exec (.fdecc i []) s = .next { s with outbox := s.outbox ++ [.frames []] })
  ∧ (∀ (s : State) (i : Nat) (f : Framer) (b : Byte) (rest : Bytes), s.framers[i]? = some f →
    ∃ (t u : State) (o os : List Frame),
      exec (.fdecb i b) s = .next t ∧ t.outbox = s.outbox ++ [.frames o]
      ∧ exec (.fdecc i rest) t = .next u ∧ u.outbox = t.outbox ++ [.frames os]
      ∧ exec (.fdecc i (b :: rest)) s =
        .next { s with framers := u.framers, outbox := s.outbox ++ [.frames (o ++ os)] })

/-- R110, spec/43_framer.md §5: feeding two chunks is feeding their concatenation: the same frames, the same end state. -/
def Obligations.ChunkBoundariesDoNotMatter : Prop :=
  ∀ (s : State) (i : Nat) (f : Framer) (a b : Bytes), s.framers[i]? = some f →
    ∃ (t u : State) (o1 o2 : List Frame),
      exec (.fdecc i a) s = .next t ∧ t.outbox = s.outbox ++ [.frames o1]
      ∧ exec (.fdecc i b) t = .next u ∧ u.outbox = t.outbox ++ [.frames o2]
      ∧ exec (.fdecc i (a ++ b)) s =
        .next { s with framers := u.framers, outbox := s.outbox ++ [.frames (o1 ++ o2)] }

/-- R111, R53: the stuffed frame and its length. -/
def Obligations.FencStuffsThePayload : Prop :=
  ∀ (payload wire : Bytes) (s : State),
    wire = [0x10, 0x02] ++ payload.flatMap (fun b => if b = 0x10 then [0x10, 0x10] else [b]) ++ [0x10, 0x03] →
    wire.length = payload.length + payload.count 0x10 + 4
      ∧ exec (.fenc payload) s = .next { s with outbox := s.outbox ++ [.wire wire] }

/-- spec/43_framer.md §3: the stuffing round trip from each of its start states, for every payload within the capacity. -/
def Obligations.StuffingRoundTrip : Prop :=
  ∀ (s : State) (i : Nat) (f : Framer) (d : Bytes), s.framers[i]? = some f → s.params.fits d.length = true →
    (f.phase = .idle ∧ f.esc = false ∨ f.phase = .inFrame ∧ f.esc = false
      ∨ f.phase = .idle ∧ f.esc = true ∧ s.params.idleDleDle = .keep) →
    ∃ wire : Bytes, exec (.fenc d) s = .next { s with outbox := s.outbox ++ [.wire wire] }
      ∧ exec (.fdecc i wire) s =
        .next { s with framers := s.framers.set i { phase := .idle, esc := false, buf := [] },
                       outbox := s.outbox ++ [.frames [d]] }

/-- R113: any partial frame is dropped, nothing is emitted. -/
def Obligations.FrstResetsTheInstance : Prop :=
  ∀ (s : State) (i : Nat) (f : Framer), s.framers[i]? = some f →
    exec (.frst i) s =
      .next { s with framers := s.framers.set i { phase := .idle, esc := false, buf := [] },
                     outbox := s.outbox ++ [.empty] }

/-- R46: operations on different instances commute: the same frames each, the same end state of every instance. -/
def Obligations.DifferentInstancesCommute : Prop :=
  ∀ (s : State) (i j : Nat) (f g : Framer) (a b : Bytes),
    i ≠ j → s.framers[i]? = some f → s.framers[j]? = some g →
    ∃ (t1 t2 u1 u2 : State) (fs gs : List Frame),
      exec (.fdecc i a) s = .next t1 ∧ t1.outbox = s.outbox ++ [.frames fs]
      ∧ exec (.fdecc j b) t1 = .next t2 ∧ t2.outbox = t1.outbox ++ [.frames gs]
      ∧ exec (.fdecc j b) s = .next u1 ∧ u1.outbox = s.outbox ++ [.frames gs]
      ∧ exec (.fdecc i a) u1 = .next u2 ∧ u2.outbox = u1.outbox ++ [.frames fs]
      ∧ t2.framers = u2.framers

/-- R54, with R105 to R109: the four in-frame pairs, both bytes consumed. -/
def Obligations.InFramePairsDoWhatTheirRowsSay : Prop :=
  ∀ (s : State) (i : Nat) (f : Framer) (xx : Byte),
    s.framers[i]? = some f → f.phase = .inFrame → f.esc = false →
    (hasRoom s.params f.buf → exec (.escDleLiteral i) s =
      .next { s with framers := s.framers.set i { phase := .inFrame, esc := false, buf := f.buf ++ [0x10] },
                     outbox := s.outbox ++ [.frames []] })
    ∧ (¬ hasRoom s.params f.buf → exec (.escDleLiteral i) s =
      .next { s with framers := s.framers.set i { phase := .idle, esc := false, buf := [] },
                     outbox := s.outbox ++ [.frames []] })
    ∧ exec (.escEtxEmit i) s =
      .next { s with framers := s.framers.set i { phase := .idle, esc := false, buf := [] },
                     outbox := s.outbox ++ [.frames [f.buf]] }
    ∧ exec (.escStxRestart i) s =
      .next { s with framers := s.framers.set i { phase := .inFrame, esc := false, buf := [] },
                     outbox := s.outbox ++ [.frames []] }
    ∧ (xx ∉ [0x10, 0x02, 0x03] → exec (.escDesync i xx) s =
      .next { s with framers := s.framers.set i { phase := .idle, esc := false, buf := [] },
                     outbox := s.outbox ++ [.frames []] })

/-- R54, with R103: the three idle pairs, both bytes consumed. -/
def Obligations.IdlePairsDoWhatTheirRowsSay : Prop :=
  ∀ (s : State) (i : Nat) (f : Framer) (xx : Byte),
    s.framers[i]? = some f → f.phase = .idle → f.esc = false →
    exec (.idleDleStxStart i) s =
      .next { s with framers := s.framers.set i { phase := .inFrame, esc := false, buf := [] },
                     outbox := s.outbox ++ [.frames []] }
    ∧ exec (.idleDleDle i) s =
      .next { s with framers := s.framers.set i { f with esc := decide (s.params.idleDleDle = .keep) },
                     outbox := s.outbox ++ [.frames []] }
    ∧ (xx ∉ [0x02, 0x10] → exec (.idleDleOther i xx) s = .next { s with outbox := s.outbox ++ [.frames []] })

/-- R54, R102: in every state of the instance with no escape pending, the row that the pair selects does what FDECC of the
two bytes does. -/
def Obligations.PairRowIsFdeccOfItsBytes : Prop :=
  ∀ (s : State) (i : Nat) (f : Framer) (b : Byte), s.framers[i]? = some f → f.esc = false →
    exec (decodePair f.phase i b) s = exec (.fdecc i [0x10, b]) s

/-- The desync property of spec/95_test_vectors.md W7, for every capacity: noise in a frame up to an invalid escape, then a
valid frame, gives exactly the valid frame and no residual state. -/
def Obligations.RecoveryAfterDesync : Prop :=
  ∀ (s : State) (i : Nat) (f : Framer) (noise d : Bytes) (xx : Byte),
    s.framers[i]? = some f → f.phase = .idle → f.esc = false → 0x10 ∉ noise → xx ∉ [0x10, 0x02, 0x03] →
    s.params.fits d.length = true →
    exec (.fdecc i ([0x10, 0x02] ++ noise ++ [0x10, xx] ++ framerEncode d)) s =
      .next { s with framers := s.framers.set i { phase := .idle, esc := false, buf := [] },
                     outbox := s.outbox ++ [.frames [d]] }

/-- R71, spec/30_encoding.md §7: what SEND93 builds, RECV on an idle instance takes apart: one frame, one record, the fields
sent, and no residual state (`P_DP_MASK = 0x03`, the record within the capacity). -/
def Obligations.RecvOfSend93RecoversTheFields : Prop :=
  ∀ (s : State) (i : Nat) (pgn : BitVec 20) (pr : BitVec 3) (src dst : Byte) (ts : BitVec 32) (data : Bytes),
    s.framers[i]? = some { phase := .idle, esc := false, buf := [] } → s.params.dpMask = 0x03 →
    data.length ≤ 244 → pgn.toNat ≤ 0x3FFFF → s.params.fits (14 + data.length) = true →
    ∃ (r wire : Bytes) (t : State),
      send93 pgn pr src dst ts data s = .next t
      ∧ t = { s with outbox := s.outbox ++ [.encoded r, .wire wire] }
      ∧ recv i wire t = .next { t with outbox := t.outbox ++ [.frames [r], .record
          { recordType := .type93, pgn := recomposedPgn pgn, priority := pr, source := some src, destination := dst,
            timestamp := some ts, payloadData := data, direction := none, messageClass := none, sourceOrigin := none,
            fastPacketSequence := none }] }
end

