-- ==== Sys2Proof/Laws/Operands.lean ====
section
/-! SUPPORT. What the operand helpers compute, in natural numbers. -/

namespace Sys2Proof.Machine

@[simp] theorem byteAt_cons_zero (b : Byte) (s : Bytes) : byteAt (b :: s) 0 = b := rfl

@[simp] theorem byteAt_cons_succ (b : Byte) (s : Bytes) (i : Nat) : byteAt (b :: s) (i + 1) = byteAt s i := rfl

theorem byteOf_toNat {w : Nat} (v : BitVec w) (k : Nat) : (byteOf v k).toNat = v.toNat / 2 ^ (8 * k) % 256 := by
  simp [byteOf, BitVec.extractLsb'_toNat, Nat.shiftRight_eq_div_pow]

/-- A value shifted left beyond the other's width is added to it. -/
theorem or_shift_toNat {a b k : Nat} (h : a < 2 ^ k) : a ||| b <<< k = a + b * 2 ^ k := by
  rw [Nat.or_comm, ← Nat.shiftLeft_add_eq_or_of_lt h, Nat.shiftLeft_eq, Nat.add_comm]

theorem le16_toNat (s : Bytes) (i : Nat) : (le16 s i).toNat = (byteAt s i).toNat + 256 * (byteAt s (i + 1)).toNat := by
  have h0 := (byteAt s i).isLt
  have h1 := (byteAt s (i + 1)).isLt
  simp only [le16, BitVec.toNat_or, BitVec.toNat_setWidth, BitVec.toNat_shiftLeft]
  rw [Nat.mod_eq_of_lt (by omega), Nat.mod_eq_of_lt (a := (byteAt s (i + 1)).toNat) (by omega),
    Nat.mod_eq_of_lt (by rw [Nat.shiftLeft_eq]; omega), or_shift_toNat (by omega)]
  omega

theorem le24_toNat (a b c : Byte) : (le24 a b c).toNat = a.toNat + 256 * b.toNat + 65536 * c.toNat := by
  have ha := a.isLt
  have hb := b.isLt
  have hc := c.isLt
  simp only [le24, BitVec.toNat_or, BitVec.toNat_setWidth, BitVec.toNat_shiftLeft]
  rw [Nat.mod_eq_of_lt (a := a.toNat) (by omega), Nat.mod_eq_of_lt (a := b.toNat) (by omega),
    Nat.mod_eq_of_lt (a := c.toNat) (by omega), Nat.mod_eq_of_lt (a := b.toNat <<< 8) (by rw [Nat.shiftLeft_eq]; omega),
    Nat.mod_eq_of_lt (a := c.toNat <<< 16) (by rw [Nat.shiftLeft_eq]; omega), or_shift_toNat (k := 8) (by omega),
    or_shift_toNat (k := 16) (by omega)]
  omega

theorem le32_toNat (s : Bytes) (i : Nat) :
    (le32 s i).toNat = (byteAt s i).toNat + (byteAt s (i + 1)).toNat * 256 + (byteAt s (i + 2)).toNat * 65536
      + (byteAt s (i + 3)).toNat * 16777216 := by
  have h0 := (byteAt s i).isLt
  have h1 := (byteAt s (i + 1)).isLt
  have h2 := (byteAt s (i + 2)).isLt
  have h3 := (byteAt s (i + 3)).isLt
  simp only [le32, BitVec.toNat_or, BitVec.toNat_setWidth, BitVec.toNat_shiftLeft]
  rw [Nat.mod_eq_of_lt (a := (byteAt s i).toNat) (by omega), Nat.mod_eq_of_lt (a := (byteAt s (i + 1)).toNat) (by omega),
    Nat.mod_eq_of_lt (a := (byteAt s (i + 2)).toNat) (by omega),
    Nat.mod_eq_of_lt (a := (byteAt s (i + 3)).toNat) (by omega),
    Nat.mod_eq_of_lt (a := (byteAt s (i + 1)).toNat <<< 8) (by rw [Nat.shiftLeft_eq]; omega),
    Nat.mod_eq_of_lt (a := (byteAt s (i + 2)).toNat <<< 16) (by rw [Nat.shiftLeft_eq]; omega),
    Nat.mod_eq_of_lt (a := (byteAt s (i + 3)).toNat <<< 24) (by rw [Nat.shiftLeft_eq]; omega),
    or_shift_toNat (k := 8) (by omega), or_shift_toNat (k := 16) (by omega), or_shift_toNat (k := 24) (by omega)]
  omega

/-- `narrow` (R51): the value where it fits the width, and only there. -/
theorem narrow_eq_some {v w : Nat} {x : BitVec v} {y : BitVec w} : narrow w x = some y ↔ x.toNat = y.toNat := by
  have hy := y.isLt
  unfold narrow
  split
  · next h =>
    simp only [Option.some.injEq, ← BitVec.toNat_inj, BitVec.toNat_setWidth]
    rw [Nat.mod_eq_of_lt h]
  · next h => simp only [reduceCtorEq, false_iff]; omega

@[simp] theorem sum8_nil : sum8 [] = 0 := rfl

theorem sum8_toNat (s : Bytes) : (sum8 s).toNat = (s.map BitVec.toNat).sum % 256 := rfl

theorem sum8_eq_zero_iff (s : Bytes) : sum8 s = 0 ↔ (s.map BitVec.toNat).sum % 256 = 0 := by
  rw [← BitVec.toNat_inj, sum8_toNat]; rfl

end Sys2Proof.Machine
end

