-- ==== Sys2Proof/Laws/State.lean ====
section
/-! SUPPORT. One lemma per field per update of State, and what State.make holds. -/

namespace Sys2Proof.Machine

@[simp] theorem answer_params (s : State) (r : Result) : (s.answer r).params = s.params := rfl
@[simp] theorem answer_framers (s : State) (r : Result) : (s.answer r).framers = s.framers := rfl
@[simp] theorem answer_inbox (s : State) (r : Result) : (s.answer r).inbox = s.inbox := rfl
@[simp] theorem answer_outbox (s : State) (r : Result) : (s.answer r).outbox = s.outbox ++ [r] := rfl

@[simp] theorem setFramer_params (s : State) (i : Nat) (f : Framer) : (s.setFramer i f).params = s.params := rfl
@[simp] theorem setFramer_framers (s : State) (i : Nat) (f : Framer) :
    (s.setFramer i f).framers = s.framers.set i f := rfl
@[simp] theorem setFramer_inbox (s : State) (i : Nat) (f : Framer) : (s.setFramer i f).inbox = s.inbox := rfl
@[simp] theorem setFramer_outbox (s : State) (i : Nat) (f : Framer) : (s.setFramer i f).outbox = s.outbox := rfl

@[simp] theorem withInbox_params (s : State) (us : List Input) : (s.withInbox us).params = s.params := rfl
@[simp] theorem withInbox_framers (s : State) (us : List Input) : (s.withInbox us).framers = s.framers := rfl
@[simp] theorem withInbox_inbox (s : State) (us : List Input) : (s.withInbox us).inbox = us := rfl
@[simp] theorem withInbox_outbox (s : State) (us : List Input) : (s.withInbox us).outbox = s.outbox := rfl

@[simp] theorem make_params (p : Params) (n : Nat) : (State.make p n).params = p := rfl
@[simp] theorem make_framers (p : Params) (n : Nat) : (State.make p n).framers = List.replicate n Framer.reset := rfl
@[simp] theorem make_inbox (p : Params) (n : Nat) : (State.make p n).inbox = [] := rfl
@[simp] theorem make_outbox (p : Params) (n : Nat) : (State.make p n).outbox = [] := rfl

end Sys2Proof.Machine
end

