-- ==== Sys2Proof/Laws/Ops.lean ====
section
/-! SUPPORT. For each shared operation, once, everything it can do. -/

namespace Sys2Proof.Machine

@[simp] theorem raise_eq (cmd : Instr) (e : Error) (s : State) :
    raise cmd e s = .next (s.answer (.error e (Config.diagnosticText cmd))) := rfl

@[simp] theorem finish_ok {α : Type} (cmd : Instr) (bundle : α → Result) (a : α) (s : State) :
    finish cmd bundle (.ok a) s = .next (s.answer (bundle a)) := rfl

@[simp] theorem finish_error {α : Type} (cmd : Instr) (bundle : α → Result) (e : Error) (s : State) :
    finish cmd bundle (.error e) s = .next (s.answer (.error e (Config.diagnosticText cmd))) := rfl

/-- `finish` always completes, with the operation's bundle or with the error's. -/
theorem finish_cases {α : Type} (cmd : Instr) (bundle : α → Result) (x : Except Error α) (s : State) :
    (∃ a, x = .ok a ∧ finish cmd bundle x s = .next (s.answer (bundle a)))
      ∨ (∃ e, x = .error e ∧ finish cmd bundle x s = .next (s.answer (.error e (Config.diagnosticText cmd)))) := by
  cases x with
  | ok a => exact .inl ⟨a, rfl, rfl⟩
  | error e => exact .inr ⟨e, rfl, rfl⟩

theorem onFramer_of_some {i : Nat} {s : State} {f : Framer} (op : Framer → Framer × List Frame)
    (h : s.framers[i]? = some f) :
    onFramer i op s = .next ((s.setFramer i (op f).1).answer (.frames (op f).2)) := by
  simp [onFramer, h]

theorem onFramer_of_none {i : Nat} {s : State} (op : Framer → Framer × List Frame) (h : s.framers[i]? = none) :
    onFramer i op s = .fault (.noSuchInstance i) := by
  simp [onFramer, h]

/-- If `onFramer` answers a next state, the instance exists and the state is the operation's. -/
theorem onFramer_next {i : Nat} {s t : State} {op : Framer → Framer × List Frame} (h : onFramer i op s = .next t) :
    ∃ f, s.framers[i]? = some f ∧ t = (s.setFramer i (op f).1).answer (.frames (op f).2) := by
  cases hf : s.framers[i]? with
  | none => simp [onFramer_of_none op hf] at h
  | some f => exact ⟨f, rfl, by simpa [onFramer_of_some op hf] using h.symm⟩

theorem execFrst_of_some {i : Nat} {s : State} {f : Framer} (h : s.framers[i]? = some f) :
    execFrst i s = .next ((s.setFramer i Framer.reset).answer .empty) := by
  simp [execFrst, h]

theorem execFrst_of_none {i : Nat} {s : State} (h : s.framers[i]? = none) :
    execFrst i s = .fault (.noSuchInstance i) := by
  simp [execFrst, h]

/-- `append` (R40): the byte stands at the end where the buffer has room, and only there. -/
theorem append_eq_some {p : Params} {buf buf' : Bytes} {b : Byte} :
    append p buf b = some buf' ↔ p.fits (buf.length + 1) = true ∧ buf' = buf ++ [b] := by
  unfold append
  split
  · next h => simp [h, eq_comm]
  · next h => simp [h]

theorem append_eq_none {p : Params} {buf : Bytes} {b : Byte} :
    append p buf b = none ↔ p.fits (buf.length + 1) = false := by
  simp [append]

theorem context_of_some {s : State} {i : Nat} {f : Framer} (h : s.framers[i]? = some f) :
    s.context i = (f.phase, f.esc) := by
  simp [State.context, h]

theorem appendData_of_fits {p : Params} {f : Framer} (b : Byte) (h : p.fits (f.buf.length + 1) = true) :
    appendData p f b = { f with esc := false, buf := f.buf ++ [b] } := by
  simp [appendData, append, h]

theorem appendData_of_full {p : Params} {f : Framer} (b : Byte) (h : p.fits (f.buf.length + 1) = false) :
    appendData p f b = { phase := .idle, esc := false, buf := [] } := by
  simp [appendData, append, h, abortFrame]

@[simp] theorem framerDecode_nil (p : Params) (f : Framer) : framerDecode p f [] = (f, []) := rfl

theorem framerDecode_cons (p : Params) (f : Framer) (b : Byte) (rest : Bytes) :
    framerDecode p f (b :: rest) =
      ((framerDecode p (framerStep p f b).1 rest).1,
        (framerStep p f b).2 ++ (framerDecode p (framerStep p f b).1 rest).2) := rfl

@[simp] theorem stuff_nil : stuff [] = [] := rfl

theorem stuff_cons (b : Byte) (rest : Bytes) :
    stuff (b :: rest) = if b = DLE then b :: DLE :: stuff rest else b :: stuff rest := rfl

/-- `preliminaryError` (R86): the empty frame, the checksum, or nothing. -/
theorem preliminaryError_cases (f : Frame) :
    (f = [] ∧ preliminaryError f = some (.payloadTooShort 0 .empty))
      ∨ (f ≠ [] ∧ sum8 f ≠ 0 ∧ preliminaryError f = some (.checksum (sum8 f)))
      ∨ (f ≠ [] ∧ sum8 f = 0 ∧ preliminaryError f = none) := by
  by_cases h : f = []
  · subst h; exact .inl ⟨rfl, rfl⟩
  · by_cases hs : sum8 f = 0
    · exact .inr (.inr ⟨h, hs, by rw [preliminaryError, if_neg (by simpa using h), if_neg (by simp [hs])]⟩)
    · exact .inr (.inl ⟨h, hs, by rw [preliminaryError, if_neg (by simpa using h), if_pos hs]⟩)

/-- `recordTypeOf` (R87): the type whose tag the byte is, and only it. -/
theorem recordTypeOf_eq_some {t : Byte} {rt : RecordType} : recordTypeOf t = some rt ↔ t = recordTag rt := by
  unfold recordTypeOf
  split
  · next h => subst h; cases rt <;> decide
  · split
    · next h => subst h; cases rt <;> decide
    · split
      · next h => subst h; cases rt <;> decide
      · next h1 h2 h3 => cases rt <;> simp [recordTag, h1, h2, h3]

/-- `encodeWith` (R98): the data check first, then the PGN check, then the sealed record. -/
theorem encodeWith_cases (most : Nat) (pgn : BitVec 20) (data : Bytes) (layout : BitVec 2 → Byte → Byte → Bytes) :
    (most < data.length ∧ encodeWith most pgn data layout = .error (.encodeRange .data))
      ∨ (data.length ≤ most ∧ pgn.extractLsb' 18 2 ≠ 0
          ∧ encodeWith most pgn data layout = .error (.encodeRange .pgn))
      ∨ (data.length ≤ most ∧ pgn.extractLsb' 18 2 = 0 ∧ encodeWith most pgn data layout =
          .ok (sealRecord
            (layout (pgn.extractLsb' 16 2) (pgn.extractLsb' 8 8) (pgn.extractLsb' 0 8) ++ data))) := by
  by_cases h : most < data.length
  · exact .inl ⟨h, by simp [encodeWith, h]⟩
  · by_cases hp : pgn.extractLsb' 18 2 = 0
    · exact .inr (.inr ⟨by omega, hp, by rw [encodeWith, if_neg h, splitPgn, if_neg (by simp [hp])]⟩)
    · exact .inr (.inl ⟨by omega, hp, by rw [encodeWith, if_neg h, splitPgn, if_pos hp]⟩)

end Sys2Proof.Machine
end

