-- ==== Sys2Proof/Laws/PerInstr.lean ====
section
/-! SUPPORT. Families of statements with one lemma per constructor of Instr. `RowMatch`: the encoding of an instruction
begins with the bytes of its row's match in spec/opcode_table.json, in the order they stand on the interface. -/

namespace Sys2Proof.Laws.RowMatch

/-- The match column of spec/opcode_table.json: a selector, a tag, or an escape pair. -/
def matchBytes : Instr → Bytes
  | .cksum _ => [0x01]
  | .zsum _ => [0x02]
  | .pgnc _ _ _ => [0x03]
  | .pgns _ => [0x04]
  | .rdec _ => [0x10]
  | .enc93 _ _ _ _ _ _ => [0x13]
  | .enc94 _ _ _ _ => [0x14]
  | .encd0 _ _ _ _ _ _ _ _ _ _ => [0x1D]
  | .fdecb _ _ => [0x20]
  | .fdecc _ _ => [0x21]
  | .fenc _ => [0x22]
  | .frst _ => [0x2F]
  | .dec93 _ => [0x93]
  | .dec94 _ => [0x94]
  | .decd0 _ => [0xD0]
  | .decUnsupported tag _ => [tag]
  | .escDleLiteral _ => [0x10, 0x10]
  | .escEtxEmit _ => [0x10, 0x03]
  | .escStxRestart _ => [0x10, 0x02]
  | .escDesync _ xx => [0x10, xx]
  | .idleDleStxStart _ => [0x10, 0x02]
  | .idleDleDle _ => [0x10, 0x10]
  | .idleDleOther _ xx => [0x10, xx]

/-- The encoding begins with the row's match. -/
def Statement (i : Instr) : Prop := (encode i).bytes.take (matchBytes i).length = matchBytes i

theorem cksum (s : Bytes) : Statement (.cksum s) := rfl
theorem zsum (s : Bytes) : Statement (.zsum s) := rfl
theorem pgnc (dp : BitVec 2) (pf ps : Byte) : Statement (.pgnc dp pf ps) := rfl
theorem pgns (pgn : BitVec 20) : Statement (.pgns pgn) := rfl
theorem rdec (f : Frame) : Statement (.rdec f) := rfl
theorem enc93 (pgn : BitVec 20) (pr : BitVec 3) (src dst : Byte) (ts : BitVec 32) (data : Bytes) :
    Statement (.enc93 pgn pr src dst ts data) := rfl
theorem enc94 (pgn : BitVec 20) (pr : BitVec 3) (dst : Byte) (data : Bytes) : Statement (.enc94 pgn pr dst data) := rfl
theorem encd0 (pgn : BitVec 20) (pr : BitVec 3) (src dst : Byte) (ts : BitVec 32) (dir : BitVec 1) (mc : BitVec 2)
    (so : BitVec 1) (fps : BitVec 3) (data : Bytes) : Statement (.encd0 pgn pr src dst ts dir mc so fps data) := rfl
theorem fdecb (i : Nat) (b : Byte) : Statement (.fdecb i b) := rfl
theorem fdecc (i : Nat) (chunk : Bytes) : Statement (.fdecc i chunk) := rfl
theorem fenc (p : Bytes) : Statement (.fenc p) := rfl
theorem frst (i : Nat) : Statement (.frst i) := rfl
theorem dec93 (rest : Bytes) : Statement (.dec93 rest) := rfl
theorem dec94 (rest : Bytes) : Statement (.dec94 rest) := rfl
theorem decd0 (rest : Bytes) : Statement (.decd0 rest) := rfl
theorem decUnsupported (tag : Byte) (rest : Bytes) : Statement (.decUnsupported tag rest) := rfl
theorem escDleLiteral (i : Nat) : Statement (.escDleLiteral i) := rfl
theorem escEtxEmit (i : Nat) : Statement (.escEtxEmit i) := rfl
theorem escStxRestart (i : Nat) : Statement (.escStxRestart i) := rfl
theorem escDesync (i : Nat) (xx : Byte) : Statement (.escDesync i xx) := rfl
theorem idleDleStxStart (i : Nat) : Statement (.idleDleStxStart i) := rfl
theorem idleDleDle (i : Nat) : Statement (.idleDleDle i) := rfl
theorem idleDleOther (i : Nat) (xx : Byte) : Statement (.idleDleOther i xx) := rfl

end Sys2Proof.Laws.RowMatch
end

