-- ==== Sys2Proof/Machine/Listing.lean ====
section
/-! DEFINITION. The written form of a command (spec/30_encoding.md R70): `MNEMONIC operand, operand`, byte sequences as
`[93 0E 00]`, an instance as `#i`, named operands as `name=value`. Characters, not a state of the block. The record-tag and
escape-pair rows are no commands and have no written form of their own in R70; they are written with their row's mnemonic. -/

namespace Sys2Proof.Machine

/-- One hexadecimal digit. -/
def hexDigit (n : Nat) : Char := "0123456789ABCDEF".toList.getD (n % 16) '0'

/-- The k low hexadecimal digits of n. -/
def hexDigits (k n : Nat) : List Char :=
  match k with
  | 0 => []
  | k + 1 => hexDigits k (n / 16) ++ [hexDigit n]

/-- R10: a literal `0xNN`. -/
def hexLiteral (k n : Nat) : List Char := "0x".toList ++ hexDigits k n

/-- R70: a byte sequence, space-separated hex tokens in brackets. -/
def seqText (s : Bytes) : List Char :=
  ['['] ++ List.intercalate [' '] (s.map (fun b => hexDigits 2 b.toNat)) ++ [']']

/-- R70: `name=value`. -/
def named (name : String) (value : List Char) : List Char := name.toList ++ ['='] ++ value

/-- R70: a framer instance, `#i`. -/
def instText (i : Nat) : List Char := ['#'] ++ Nat.toDigits 10 i

/-- R70: one command a line, operands separated by commas. -/
def lineText (mnemonic : String) (operands : List (List Char)) : List Char :=
  mnemonic.toList ++ (if operands.isEmpty then [] else [' ']) ++ List.intercalate [',', ' '] operands

/-- R70: an instruction as it is written. -/
def listing : Instr → List Char
  | .cksum s => lineText "CKSUM" [seqText s]
  | .zsum s => lineText "ZSUM" [seqText s]
  | .pgnc dp pf ps =>
    lineText "PGNC" [named "dp" (hexLiteral 1 dp.toNat), named "pf" (hexLiteral 2 pf.toNat),
      named "ps" (hexLiteral 2 ps.toNat)]
  | .pgns pgn => lineText "PGNS" [hexLiteral 5 pgn.toNat]
  | .rdec f => lineText "RDEC" [seqText f]
  | .enc93 pgn pr src dst ts data =>
    lineText "ENC93" [named "pgn" (hexLiteral 5 pgn.toNat), named "priority" (hexDigits 1 pr.toNat),
      named "source" (hexLiteral 2 src.toNat), named "destination" (hexLiteral 2 dst.toNat),
      named "timestamp" (hexLiteral 8 ts.toNat), named "data" (seqText data)]
  | .enc94 pgn pr dst data =>
    lineText "ENC94" [named "pgn" (hexLiteral 5 pgn.toNat), named "priority" (hexDigits 1 pr.toNat),
      named "destination" (hexLiteral 2 dst.toNat), named "data" (seqText data)]
  | .encd0 pgn pr src dst ts dir mc so fps data =>
    lineText "ENCD0" [named "pgn" (hexLiteral 5 pgn.toNat), named "priority" (hexDigits 1 pr.toNat),
      named "source" (hexLiteral 2 src.toNat), named "destination" (hexLiteral 2 dst.toNat),
      named "timestamp" (hexLiteral 8 ts.toNat), named "direction" (hexDigits 1 dir.toNat),
      named "messageClass" (hexDigits 1 mc.toNat), named "sourceOrigin" (hexDigits 1 so.toNat),
      named "fastPacketSequence" (hexDigits 1 fps.toNat), named "data" (seqText data)]
  | .fdecb i b => lineText "FDECB" [instText i, hexLiteral 2 b.toNat]
  | .fdecc i chunk => lineText "FDECC" [instText i, seqText chunk]
  | .fenc payload => lineText "FENC" [seqText payload]
  | .frst i => lineText "FRST" [instText i]
  | .dec93 rest => lineText "DEC93" [seqText (TAG93 :: rest)]
  | .dec94 rest => lineText "DEC94" [seqText (TAG94 :: rest)]
  | .decd0 rest => lineText "DECD0" [seqText (TAGD0 :: rest)]
  | .decUnsupported tag rest => lineText "DEC_UNSUPPORTED" [seqText (tag :: rest)]
  | .escDleLiteral i => lineText "ESC_DLE_LITERAL" [instText i]
  | .escEtxEmit i => lineText "ESC_ETX_EMIT" [instText i]
  | .escStxRestart i => lineText "ESC_STX_RESTART" [instText i]
  | .escDesync i xx => lineText "ESC_DESYNC" [instText i, hexLiteral 2 xx.toNat]
  | .idleDleStxStart i => lineText "IDLE_DLE_STX_START" [instText i]
  | .idleDleDle i => lineText "IDLE_DLE_DLE" [instText i]
  | .idleDleOther i xx => lineText "IDLE_DLE_OTHER" [instText i, hexLiteral 2 xx.toNat]

end Sys2Proof.Machine
end

