-- ==== Sys2Proof/Tests/Slice0.lean ====
section
/-! SUPPORT. Tests. Expected values come from spec/95_test_vectors.md (W, V and P numbers) and from words written out from
spec/30_encoding.md; then one witness for each statement that has hypotheses. -/

namespace Sys2Proof.Tests

open Sys2Proof.Machine

/-! ### Helpers -/

/-- Two instances, #0 as given. -/
def stateWith (f : Framer) : State := { State.reset with framers := [f, Framer.reset] }

/-- The same with a finite `P_FRAME_CAP`. -/
def capped (c : Nat) (f : Framer) : State := { stateWith f with params := { Params.decided with frameCap := some c } }

/-- In a frame. -/
def inFrame (esc : Bool) (buf : Bytes) : Framer := { phase := .inFrame, esc := esc, buf := buf }

/-- Idle with an escape pending. -/
def idlePending : Framer := { phase := .idle, esc := true, buf := [] }

/-- One unit waiting. -/
def waiting (u : Input) : State := { State.reset with inbox := [u] }

/-- The last result bundle of a next state, an error without its free text. -/
def lastResult (o : Outcome) : Option (Result ⊕ Error) :=
  match o with
  | .next s =>
    match s.outbox.getLast? with
    | some (.error e _) => some (.inr e)
    | some r => some (.inl r)
    | none => none
  | _ => none

/-- Instance #0 of a next state. -/
def framer0 (o : Outcome) : Option Framer :=
  match o with
  | .next s => s.framers[0]?
  | _ => none

/-- The refusal, if that is the outcome. -/
def refusal? (o : Outcome) : Option Refusal :=
  match o with
  | .refused r => some r
  | _ => none

/-- The fault, if that is the outcome. -/
def fault? (o : Outcome) : Option Fault :=
  match o with
  | .fault r => some r
  | _ => none

/-! ### WellFormed refuses an ill-formed term of each check -/

theorem test_illformed_supported_tag : (Instr.decUnsupported 0x94 []).wellFormed = false := by decide
theorem test_illformed_desync_byte : (Instr.escDesync 0 0x03).wellFormed = false := by decide
theorem test_illformed_idle_byte : (Instr.idleDleOther 0 0x10).wellFormed = false := by decide

/-! ### Decoding: a word of every constructor, written out from R50, R56, R54 -/

def cmd (bytes : Bytes) : Except Undecoded Instr := decode .idle false { port := .command, inst := 1, bytes := bytes }
def rcd (bytes : Bytes) : Except Undecoded Instr := decode .idle false { port := .record, inst := 0, bytes := bytes }
def pair (ph : Phase) (bytes : Bytes) : Except Undecoded Instr :=
  decode ph false { port := .stream, inst := 1, bytes := bytes }

theorem test_word_cksum : cmd [0x01, 0x80, 0x80] = .ok (.cksum [0x80, 0x80]) := by rfl
theorem test_word_zsum : cmd [0x02, 0xFF, 0x01] = .ok (.zsum [0xFF, 0x01]) := by rfl
theorem test_word_pgnc : cmd [0x03, 0x01, 0xFF, 0x34] = .ok (.pgnc 1 0xFF 0x34) := by rfl
theorem test_word_pgns : cmd [0x04, 0x12, 0xEF, 0x0C] = .ok (.pgns 0xCEF12) := by rfl
theorem test_word_rdec : cmd [0x10, 0x95, 0x6B] = .ok (.rdec [0x95, 0x6B]) := by rfl
theorem test_word_enc93 : cmd [0x13, 0x01, 0xF8, 0x01, 0x03, 0x2A, 0xFF, 0x78, 0x56, 0x34, 0x12, 0xAA, 0xBB]
    = .ok (.enc93 0x1F801 3 0x2A 0xFF 0x12345678 [0xAA, 0xBB]) := by rfl
theorem test_word_enc94 : cmd [0x14, 0x00, 0xEA, 0x00, 0x06, 0x23, 0x00, 0xEE, 0x00]
    = .ok (.enc94 0xEA00 6 0x23 [0x00, 0xEE, 0x00]) := by rfl
theorem test_word_encd0 :
    cmd [0x1D, 0x01, 0xF8, 0x01, 0x02, 0x05, 0xFF, 0x78, 0x56, 0x34, 0x12, 0x00, 0x03, 0x01, 0x05, 0x10]
    = .ok (.encd0 0x1F801 2 0x05 0xFF 0x12345678 0 3 1 5 [0x10]) := by rfl
theorem test_word_fdecb : cmd [0x20, 0x41] = .ok (.fdecb 1 0x41) := by rfl
theorem test_word_fdecc : cmd [0x21, 0x10, 0x02] = .ok (.fdecc 1 [0x10, 0x02]) := by rfl
theorem test_word_fenc : cmd [0x22, 0x10] = .ok (.fenc [0x10]) := by rfl
theorem test_word_frst : cmd [0x2F] = .ok (.frst 1) := by rfl
theorem test_word_dec93 : rcd [0x93, 0x6D] = .ok (.dec93 [0x6D]) := by rfl
theorem test_word_dec94 : rcd [0x94, 0x06] = .ok (.dec94 [0x06]) := by rfl
theorem test_word_decd0 : rcd [0xD0, 0x30] = .ok (.decd0 [0x30]) := by rfl
theorem test_word_decUnsupported : rcd [0xD1, 0x02] = .ok (.decUnsupported 0xD1 [0x02]) := by rfl
theorem test_word_escDleLiteral : pair .inFrame [0x10, 0x10] = .ok (.escDleLiteral 1) := by rfl
theorem test_word_escEtxEmit : pair .inFrame [0x10, 0x03] = .ok (.escEtxEmit 1) := by rfl
theorem test_word_escStxRestart : pair .inFrame [0x10, 0x02] = .ok (.escStxRestart 1) := by rfl
theorem test_word_escDesync : pair .inFrame [0x10, 0x55] = .ok (.escDesync 1 0x55) := by rfl
theorem test_word_idleDleStxStart : pair .idle [0x10, 0x02] = .ok (.idleDleStxStart 1) := by rfl
theorem test_word_idleDleDle : pair .idle [0x10, 0x10] = .ok (.idleDleDle 1) := by rfl
theorem test_word_idleDleOther : pair .idle [0x10, 0x03] = .ok (.idleDleOther 1 0x03) := by rfl

/-- A pair that an earlier DLE is pending before is no pair: its bytes are a chunk. -/
theorem test_word_unaligned_pair :
    decode .inFrame true { port := .stream, inst := 0, bytes := [0x10, 0x03] } = .ok (.fdecc 0 [0x10, 0x03]) := by rfl

theorem test_refuses_short_command : cmd [0x03, 0x01, 0xFF] = .error (.malformedCommand 0x03) := by rfl
theorem test_refuses_long_command : cmd [0x2F, 0x00] = .error (.malformedCommand 0x2F) := by rfl
theorem test_refuses_wide_data_page : cmd [0x03, 0x04, 0xFF, 0x00] = .error (.operandOverWidth 0x03) := by rfl
theorem test_refuses_wide_pgn : cmd [0x04, 0x00, 0x00, 0x10] = .error (.operandOverWidth 0x04) := by rfl
theorem test_refuses_no_selector : cmd [] = .error .emptyCommand := by rfl
theorem test_step_refuses_selector_05 :
    refusal? (step (waiting { port := .command, inst := 0, bytes := [0x05] })) = some (.unknownSelector 0x05) := by decide

/-! ### One step each, from spec/95_test_vectors.md -/

/-- V-C2. -/
theorem test_cksum_010203 :
    lastResult (exec (.cksum [0x01, 0x02, 0x03]) .reset) = some (.inl (.checksumByte 0xFA)) := by decide
/-- V-C5: a sum already 0 mod 256. -/
theorem test_cksum_8080 : lastResult (exec (.cksum [0x80, 0x80]) .reset) = some (.inl (.checksumByte 0x00)) := by decide
/-- R77's example. -/
theorem test_zsum_closed :
    lastResult (exec (.zsum [0x01, 0x02, 0x03, 0xFA]) .reset) = some (.inl (.zeroSum 1)) := by decide
/-- R77's example. -/
theorem test_zsum_open :
    lastResult (exec (.zsum [0x01, 0x02, 0x03, 0xFB]) .reset) = some (.inl (.zeroSum 0)) := by decide
/-- W4. -/
theorem test_pgnc_pdu2 : lastResult (exec (.pgnc 1 0xFF 0x34) .reset) = some (.inl (.pgn 0x1FF34)) := by decide
/-- V-P3: the PDU1 boundary. -/
theorem test_pgnc_pdu1 : lastResult (exec (.pgnc 0 0xEF 0x12) .reset) = some (.inl (.pgn 0xEF00)) := by decide
/-- V-P9. -/
theorem test_pgns_pdu1 : lastResult (exec (.pgns 0xEF12) .reset) = some (.inl (.split 0 0xEF 0x12)) := by decide
/-- V-P11. -/
theorem test_pgns_out_of_range : lastResult (exec (.pgns 0x40000) .reset) = some (.inr (.encodeRange .pgn)) := by decide
/-- V-R13. -/
theorem test_rdec_94 :
    lastResult (exec (.rdec [0x94, 0x09, 0x06, 0x00, 0xEA, 0x00, 0x23, 0x03, 0x00, 0xEE, 0x00, 0x5F]) .reset)
      = some (.inl (.record
        { recordType := .type94, pgn := 0xEA00, priority := 6, source := none, destination := 0x23,
          timestamp := none, payloadData := [0x00, 0xEE, 0x00], direction := none, messageClass := none,
          sourceOrigin := none, fastPacketSequence := none })) := by decide
/-- V-R6. -/
theorem test_rdec_length_field_cut :
    lastResult (exec (.rdec [0xD0, 0x30]) .reset) = some (.inr (.payloadTooShort 2 .lengthField)) := by decide
/-- V-R12: reserved bits ignored. -/
theorem test_dec93_reserved_bits :
    lastResult (exec (.dec93 [0x0B, 0xFB, 0x34, 0xFF, 0x05, 0x00, 0x01, 0x01, 0x00, 0x00, 0x00, 0x00, 0x2D]) .reset)
      = some (.inl (.record
        { recordType := .type93, pgn := 0x1FF34, priority := 3, source := some 1, destination := 0,
          timestamp := some 1, payloadData := [], direction := none, messageClass := none, sourceOrigin := none,
          fastPacketSequence := none })) := by decide
/-- W6, the source's frame with its own length byte and a correct checksum. -/
theorem test_dec93_length_mismatch :
    lastResult (exec (.dec93 [0x0E, 0, 0, 0, 0, 0xFF, 0x2A, 0, 0, 0, 0, 8, 0, 0, 0, 0, 0, 0, 0, 0, 0x2E]) .reset)
      = some (.inr (.lengthMismatch 14 22)) := by decide
/-- V-R10. -/
theorem test_dec94_data_length :
    lastResult (exec (.dec94 [0x08, 0, 0, 0, 0, 0, 3, 0xAA, 0xBB, 0xFC]) .reset)
      = some (.inr (.dataLengthMismatch 3 2)) := by decide
/-- V-R7. -/
theorem test_dec94_length_mismatch :
    lastResult (exec (.dec94 [0x06, 0, 0, 0, 0, 0, 0, 0x55, 0x11]) .reset) = some (.inr (.lengthMismatch 6 10)) := by
  decide
/-- V-R15. -/
theorem test_decd0_fields :
    lastResult (exec (.decd0 [0x10, 0x00, 0xFF, 0x05, 0x01, 0xF8, 0x09, 0xB9, 0x78, 0x56, 0x34, 0x12, 0x10, 0x02, 0x03,
        0x38]) .reset)
      = some (.inl (.record
        { recordType := .typeD0, pgn := 0x1F801, priority := 2, source := some 5,
          destination := 0xFF, timestamp := some 0x12345678, payloadData := [0x10, 0x02, 0x03], direction := some 1,
          messageClass := some 1, sourceOrigin := some 1, fastPacketSequence := some 5 })) := by decide
/-- V-R9: L = 12. -/
theorem test_decd0_header :
    lastResult (exec (.decd0 [0x0C, 0, 0, 0, 0, 0, 0, 0, 0, 0, 0, 0x24]) .reset)
      = some (.inr (.payloadTooShort 13 .header)) := by decide
/-- V-R5. -/
theorem test_decUnsupported_d1 :
    lastResult (exec (.decUnsupported 0xD1 [0x02, 0x00, 0x2D]) .reset) = some (.inr (.unsupportedType 0xD1)) := by decide
/-- R92: a bad checksum comes before an unknown tag. -/
theorem test_decUnsupported_checksum_first :
    lastResult (exec (.decUnsupported 0x95 [0x6C]) .reset) = some (.inr (.checksum 0x01)) := by decide
/-- V-E2. -/
theorem test_enc93_empty_data :
    lastResult (exec (.enc93 0x1F801 7 0 0 0xFFFFFFFF []) .reset)
      = some (.inl (.encoded [0x93, 0x0B, 0x07, 0x01, 0xF8, 0x01, 0x00, 0x00, 0xFF, 0xFF, 0xFF, 0xFF, 0x00, 0x65])) := by
  decide
/-- V-E10. -/
theorem test_enc93_pgn_range :
    lastResult (exec (.enc93 0x40000 0 0 0 0 []) .reset) = some (.inr (.encodeRange .pgn)) := by decide
/-- V-E4: the PGN's low byte goes into PDUS even in PDU1. -/
theorem test_enc94_pdu1 :
    lastResult (exec (.enc94 0xEF12 1 0x80 [0x10]) .reset)
      = some (.inl (.encoded [0x94, 0x07, 0x01, 0x12, 0xEF, 0x00, 0x80, 0x01, 0x10, 0xD2])) := by decide
/-- V-E12. -/
theorem test_enc94_data_too_long :
    lastResult (exec (.enc94 0 0 0 (List.replicate 250 0)) .reset) = some (.inr (.encodeRange .data)) := by
  decide +kernel
/-- V-E5. -/
theorem test_encd0_fields :
    lastResult (exec (.encd0 0x1F801 2 5 0xFF 0x12345678 1 1 1 5 [0x10, 0x02, 0x03]) .reset)
      = some (.inl (.encoded [0xD0, 0x10, 0x00, 0xFF, 0x05, 0x01, 0xF8, 0x09, 0xB9, 0x78, 0x56, 0x34, 0x12, 0x10, 0x02,
          0x03, 0x38])) := by decide
/-- V-E6: control bit 2 is written 0. -/
theorem test_encd0_packed_bytes :
    lastResult (exec (.encd0 0 7 0xFF 0xFF 0 1 3 1 7 []) .reset)
      = some (.inl (.encoded [0xD0, 0x0D, 0x00, 0xFF, 0xFF, 0x00, 0x00, 0x1C, 0xFB, 0, 0, 0, 0, 0x0E])) := by decide
/-- V-D1, the last byte. -/
theorem test_fdecb_emits :
    lastResult (exec (.fdecb 0 0x03) (stateWith (inFrame true [0x41]))) = some (.inl (.frames [[0x41]])) := by decide
/-- V-D3 with `CLEAR`, the second byte. -/
theorem test_fdecb_clear :
    framer0 (exec (.fdecb 0 0x10) { stateWith idlePending with params := { Params.decided with idleDleDle := .clear } })
      = some Framer.reset := by decide
/-- V-D9. -/
theorem test_fdecc_two_frames :
    lastResult (exec (.fdecc 0 [0x10, 0x02, 0x01, 0x10, 0x03, 0x10, 0x02, 0x02, 0x10, 0x03]) .reset)
      = some (.inl (.frames [[0x01], [0x02]])) := by decide
/-- V-D7: overflow with `P_FRAME_CAP = 2`. -/
theorem test_fdecc_overflow :
    framer0 (exec (.fdecc 0 [0x03]) (capped 2 (inFrame false [0x01, 0x02]))) = some Framer.reset := by decide
/-- V-F6. -/
theorem test_fenc_stuffs :
    lastResult (exec (.fenc [0x10, 0x03]) .reset)
      = some (.inl (.wire [0x10, 0x02, 0x10, 0x10, 0x03, 0x10, 0x03])) := by decide
/-- V-F1. -/
theorem test_fenc_empty :
    lastResult (exec (.fenc []) .reset) = some (.inl (.wire [0x10, 0x02, 0x10, 0x03])) := by decide
/-- V-D11. -/
theorem test_frst_drops_the_frame :
    framer0 (exec (.frst 0) (stateWith (inFrame false [0x41]))) = some Framer.reset := by decide
theorem test_frst_missing_instance : fault? (exec (.frst 2) .reset) = some (.noSuchInstance 2) := by decide
/-- V-D2. -/
theorem test_escDleLiteral :
    framer0 (exec (.escDleLiteral 0) (stateWith (inFrame false []))) = some (inFrame false [0x10]) := by decide
/-- V-D8: overflow on an un-stuffed DLE with `P_FRAME_CAP = 1`. -/
theorem test_escDleLiteral_overflow :
    framer0 (exec (.escDleLiteral 0) (capped 1 (inFrame false [0x01]))) = some Framer.reset := by decide
/-- V-D6: an empty frame. -/
theorem test_escEtxEmit_empty :
    lastResult (exec (.escEtxEmit 0) (stateWith (inFrame false []))) = some (.inl (.frames [[]])) := by decide
/-- V-D4. -/
theorem test_escStxRestart :
    framer0 (exec (.escStxRestart 0) (stateWith (inFrame false [0x01]))) = some (inFrame false []) := by decide
/-- V-D5. -/
theorem test_escDesync :
    framer0 (exec (.escDesync 0 0x55) (stateWith (inFrame false [0x01]))) = some Framer.reset := by decide
/-- V-D1. -/
theorem test_idleDleStxStart : framer0 (exec (.idleDleStxStart 0) .reset) = some (inFrame false []) := by decide
/-- V-D3 with `KEEP`. -/
theorem test_idleDleDle : framer0 (exec (.idleDleDle 0) .reset) = some idlePending := by decide
/-- V-D5: `10 03` in Idle is discarded. -/
theorem test_idleDleOther : framer0 (exec (.idleDleOther 0 0x03) .reset) = some Framer.reset := by decide

/-- P3 step 1's last frame, received and decoded in one RECV. -/
theorem test_recv_unsupported :
    lastResult (recv 0 [0x10, 0x02, 0x95, 0x6B, 0x10, 0x03] .reset) = some (.inr (.unsupportedType 0x95)) := by decide
/-- V-E3 and R53: SEND94. -/
theorem test_send94 :
    lastResult (send94 0xEA00 6 0x23 [0x00, 0xEE, 0x00] .reset)
      = some (.inl (.wire [0x10, 0x02, 0x94, 0x09, 0x06, 0x00, 0xEA, 0x00, 0x23, 0x03, 0x00, 0xEE, 0x00, 0x5F, 0x10,
          0x03])) := by decide
/-- R70's first example. -/
theorem test_listing_fdecc :
    listing (.fdecc 0 [0x10, 0x02, 0x01, 0x10, 0x03]) = "FDECC #0, [10 02 01 10 03]".toList := by decide
/-- R117's codes. -/
theorem test_status_codes :
    [Status.ok, .unsupportedType, .checksum, .lengthMismatch, .payloadTooShort, .dataLengthMismatch, .encodeRange].map
      statusCode = [0, 1, 2, 3, 4, 5, 6] := by decide

/-- The table's words: a selector, a tag and the in-frame reading of a pair; the next step runs each. -/
theorem test_table_words :
    decodeTableWord 8 0x2F = some (.frst 0) ∧ decodeTableWord 8 0xD0 = some (.decd0 [])
      ∧ decodeTableWord 8 0x14 = some (.enc94 0 0 0 []) ∧ decodeTableWord 16 0x1003 = some (.escEtxEmit 0)
      ∧ lastResult (step (State.reset.withFetchWord 16 0x1003)) = some (.inl (.frames [[]]))
      ∧ lastResult (step (State.reset.withFetchWord 8 0x04)) = some (.inl (.split 0 0 0)) := by decide

/-! ### Witnesses: each statement's hypotheses met together -/

theorem witness_StepRunsTheDecodedInstruction :
    (waiting (encode (.cksum [0x01]))).inbox = encode (.cksum [0x01]) :: []
      ∧ decode ((waiting (encode (.cksum [0x01]))).context (encode (.cksum [0x01])).inst).1
          ((waiting (encode (.cksum [0x01]))).context (encode (.cksum [0x01])).inst).2 (encode (.cksum [0x01]))
        = .ok (.cksum [0x01])
      ∧ (Instr.cksum [0x01]).wellFormed = true := ⟨rfl, rfl, rfl⟩
theorem witness_StepRefusesUnknownSelector :
    (waiting { port := .command, inst := 0, bytes := [0x30] }).inbox
        = { port := .command, inst := 0, bytes := 0x30 :: [] } :: []
      ∧ (0x30 : Byte) ∉ [0x01, 0x02, 0x03, 0x04, 0x10, 0x13, 0x14, 0x1D, 0x20, 0x21, 0x22, 0x2F] :=
  ⟨rfl, by decide⟩
theorem witness_StepWithNothingIssuedKeepsTheState : State.reset.inbox = [] := rfl
theorem witness_DecodeOfEncodeIsTheInstruction :
    (Instr.escDesync 1 0x11).wellFormed = true ∧ (Instr.escDesync 1 0x11).standsIn .inFrame false = true := by decide
theorem witness_DecodedCommandGivesItsBytesBack :
    decode .idle true { port := .command, inst := 0, bytes := [0x03, 0x03, 0xF0, 0x00] } = .ok (.pgnc 3 0xF0 0x00) := rfl
theorem witness_ResetLeavesEveryInstanceIdleAndEmpty : (1 : Nat) < 2 := by decide
theorem witness_EveryStepKeepsTheInvariant :
    (waiting (encode (.fdecc 0 [0x10, 0x02, 0x41]))).inv = true
      ∧ ∃ t, step (waiting (encode (.fdecc 0 [0x10, 0x02, 0x41]))) = .next t := ⟨by decide, _, rfl⟩
theorem witness_NoStepChangesTheParameters : ∃ t, step (waiting (encode (.frst 1))) = .next t := ⟨_, rfl⟩
theorem witness_OtherInstancesAreUntouched :
    (∃ t, exec (.fdecb 0 0x10) .reset = .next t) ∧ (Instr.fdecb 0 0x10).framer? ≠ some 1 := ⟨⟨_, rfl⟩, by decide⟩
theorem witness_StatelessResultsDependOnOperandsAlone :
    (Instr.rdec [0x00]).framer? = none ∧ State.reset.params = (stateWith (inFrame true [0x41])).params := ⟨rfl, rfl⟩
theorem witness_EveryOperationReturnsOneBundle : ∃ t, exec (.frst 0) .reset = .next t := ⟨_, rfl⟩
theorem witness_ExecCompletesExactlyWhereTheInstanceExists :
    State.reset.serves (.frst 1) = true ∧ State.reset.serves (.frst 2) = false := by decide
theorem witness_ErrorsWriteNoState :
    ∃ t, exec (.rdec []) .reset = .next t
      ∧ t.outbox = State.reset.outbox ++ [.error (.payloadTooShort 0 .empty) (Config.diagnosticText (.rdec []))] :=
  ⟨_, rfl, rfl⟩
theorem witness_PgnRoundTripLaws : (0x3FFFF : BitVec 20).toNat ≤ 0x3FFFF ∧ (0 : BitVec 20).toNat ≤ 0x3FFFF := by decide
/-- The boundary n = 0 (L = 11); V-R12's frame. -/
theorem witness_Dec93ReadsTheFields :
    byteSum (0x93 :: ([0x0B, 0xFB, 0x34, 0xFF, 0x05, 0x00, 0x01, 0x01, 0x00, 0x00, 0x00, 0x00] ++ [] ++ [0x2D])) % 256 = 0
      ∧ (0x0B : Byte).toNat = 11 + ([] : Bytes).length := by decide
/-- V-R10's frame (the data length disagrees). -/
theorem witness_Dec94ReadsTheFields :
    byteSum (0x94 :: ([0x08, 0, 0, 0, 0, 0, 3] ++ [0xAA, 0xBB] ++ [0xFC])) % 256 = 0
      ∧ (0x08 : Byte).toNat = 6 + ([0xAA, 0xBB] : Bytes).length := by decide
/-- V-R17's frame. -/
theorem witness_Decd0ReadsTheFields :
    byteSum (0xD0 :: ([0x0D, 0, 1, 2, 0, 0xEF, 0xFF, 4, 0, 0, 0, 0] ++ [] ++ [0x2E])) % 256 = 0
      ∧ (0x0D : Byte).toNat + 256 * (0 : Byte).toNat = 13 + ([] : Bytes).length := by decide
theorem witness_DecUnsupportedAlwaysRaises :
    (0x95 : Byte) ∉ [0x93, 0x94, 0xD0] ∧ byteSum (0x95 :: [0x6B]) % 256 = 0 := by decide
theorem witness_Enc93WritesTheRecord :
    ∃ r : Bytes, r = [0x93, BitVec.ofNat 8 (11 + ([] : Bytes).length), BitVec.ofNat 8 (7 : BitVec 3).toNat,
        BitVec.ofNat 8 (0x3FFFF : BitVec 20).toNat, BitVec.ofNat 8 ((0x3FFFF : BitVec 20).toNat / 256),
        BitVec.ofNat 8 ((0x3FFFF : BitVec 20).toNat / 65536), 0, 0, BitVec.ofNat 8 (1 : BitVec 32).toNat,
        BitVec.ofNat 8 ((1 : BitVec 32).toNat / 256), BitVec.ofNat 8 ((1 : BitVec 32).toNat / 65536),
        BitVec.ofNat 8 ((1 : BitVec 32).toNat / 16777216), BitVec.ofNat 8 ([] : Bytes).length] ++ [] := ⟨_, rfl⟩
theorem witness_Enc94WritesTheRecord :
    ∃ r : Bytes, r = [0x94, BitVec.ofNat 8 (6 + ([] : Bytes).length), BitVec.ofNat 8 (7 : BitVec 3).toNat,
        BitVec.ofNat 8 (0 : BitVec 20).toNat, BitVec.ofNat 8 ((0 : BitVec 20).toNat / 256),
        BitVec.ofNat 8 ((0 : BitVec 20).toNat / 65536), 0, BitVec.ofNat 8 ([] : Bytes).length] ++ [] := ⟨_, rfl⟩
theorem witness_Encd0WritesTheRecord :
    ∃ r : Bytes, r = [0xD0, BitVec.ofNat 8 (13 + ([] : Bytes).length), BitVec.ofNat 8 ((13 + ([] : Bytes).length) / 256),
        0, 0, BitVec.ofNat 8 (0 : BitVec 20).toNat, BitVec.ofNat 8 ((0 : BitVec 20).toNat / 256),
        BitVec.ofNat 8 ((7 : BitVec 3).toNat * 4 + (0 : BitVec 20).toNat / 65536),
        BitVec.ofNat 8 ((3 : BitVec 2).toNat + (1 : BitVec 1).toNat * 8 + (1 : BitVec 1).toNat * 16
          + (7 : BitVec 3).toNat * 32), BitVec.ofNat 8 (1 : BitVec 32).toNat,
        BitVec.ofNat 8 ((1 : BitVec 32).toNat / 256), BitVec.ofNat 8 ((1 : BitVec 32).toNat / 65536),
        BitVec.ofNat 8 ((1 : BitVec 32).toNat / 16777216)] ++ [] := ⟨_, rfl⟩
theorem witness_Enc93ThenRdecRecoversTheFields :
    State.reset.params.dpMask = 0x03 ∧ (List.replicate 244 (0 : Byte)).length ≤ 244
      ∧ (0x3FFFF : BitVec 20).toNat ≤ 0x3FFFF := ⟨rfl, Nat.le_of_eq List.length_replicate, by decide⟩
theorem witness_Enc94ThenRdecRecoversTheFields :
    State.reset.params.dpMask = 0x03 ∧ (List.replicate 249 (0 : Byte)).length ≤ 249
      ∧ (0x3FFFF : BitVec 20).toNat ≤ 0x3FFFF := ⟨rfl, Nat.le_of_eq List.length_replicate, by decide⟩
theorem witness_Encd0ThenRdecRecoversTheFields :
    (List.replicate 65522 (0 : Byte)).length ≤ 65522 ∧ (0x3FFFF : BitVec 20).toNat ≤ 0x3FFFF := ⟨Nat.le_of_eq List.length_replicate, by decide⟩
theorem witness_IdleTransitions :
    (stateWith idlePending).framers[0]? = some idlePending ∧ idlePending.phase = .idle := ⟨rfl, rfl⟩
/-- A last byte that fits, and one that does not. -/
theorem witness_InFrameBytesAreAppended :
    (capped 1 (inFrame false [])).framers[0]? = some (inFrame false [])
      ∧ (inFrame false []).phase = .inFrame ∧ (inFrame false []).esc = false
      ∧ hasRoom (capped 1 (inFrame false [])).params []
      ∧ ¬ hasRoom (capped 1 (inFrame false [0x41])).params [0x41] :=
  ⟨rfl, rfl, rfl, fun c h => by cases h; decide, fun h => absurd (h 1 rfl) (by decide)⟩
theorem witness_DoubledDleIsOneLiteralByte :
    (capped 1 (inFrame true [])).framers[0]? = some (inFrame true [])
      ∧ (inFrame true []).phase = .inFrame ∧ (inFrame true []).esc = true
      ∧ hasRoom (capped 1 (inFrame true [])).params []
      ∧ ¬ hasRoom (capped 1 (inFrame true [0x41])).params [0x41] :=
  ⟨rfl, rfl, rfl, fun c h => by cases h; decide, fun h => absurd (h 1 rfl) (by decide)⟩
theorem witness_DleEtxEmitsTheFrame :
    (stateWith (inFrame true [])).framers[0]? = some (inFrame true [])
      ∧ (inFrame true []).phase = .inFrame ∧ (inFrame true []).esc = true := ⟨rfl, rfl, rfl⟩
theorem witness_DleStxRestartsTheFrame :
    (stateWith (inFrame true [0x41])).framers[0]? = some (inFrame true [0x41])
      ∧ (inFrame true [0x41]).phase = .inFrame ∧ (inFrame true [0x41]).esc = true := ⟨rfl, rfl, rfl⟩
theorem witness_InvalidEscapeAbortsTheFrame :
    (stateWith (inFrame true [0x41])).framers[0]? = some (inFrame true [0x41])
      ∧ (inFrame true [0x41]).phase = .inFrame ∧ (inFrame true [0x41]).esc = true
      ∧ (0x04 : Byte) ≠ 0x10 ∧ (0x04 : Byte) ≠ 0x03 ∧ (0x04 : Byte) ≠ 0x02 :=
  ⟨rfl, rfl, rfl, by decide, by decide, by decide⟩
theorem witness_TheFramerReportsOnlyFrames : State.reset.framers[0]? = some Framer.reset := rfl
theorem witness_FdeccFoldsFdecbOverTheChunk : State.reset.framers[1]? = some Framer.reset := rfl
theorem witness_ChunkBoundariesDoNotMatter :
    (stateWith (inFrame true [])).framers[0]? = some (inFrame true []) := rfl
theorem witness_FencStuffsThePayload :
    ∃ wire : Bytes, wire =
      [0x10, 0x02] ++ ([0x10, 0x03] : Bytes).flatMap (fun b => if b = 0x10 then [0x10, 0x10] else [b]) ++ [0x10, 0x03] :=
  ⟨_, rfl⟩
/-- Each of the three start states, a payload as long as the capacity. -/
theorem witness_StuffingRoundTrip :
    State.reset.framers[0]? = some Framer.reset
      ∧ (stateWith (inFrame false [0x01, 0x02])).framers[0]? = some (inFrame false [0x01, 0x02])
      ∧ (stateWith idlePending).framers[0]? = some idlePending
      ∧ (stateWith idlePending).params.idleDleDle = .keep
      ∧ (capped 4 Framer.reset).params.fits ([0x10, 0x02, 0x03, 0x10] : Bytes).length = true :=
  ⟨rfl, rfl, rfl, rfl, by decide⟩
theorem witness_FrstResetsTheInstance :
    (stateWith (inFrame true [0x41])).framers[0]? = some (inFrame true [0x41]) := rfl
theorem witness_DifferentInstancesCommute :
    (0 : Nat) ≠ 1 ∧ State.reset.framers[0]? = some Framer.reset ∧ State.reset.framers[1]? = some Framer.reset :=
  ⟨by decide, rfl, rfl⟩
theorem witness_InFramePairsDoWhatTheirRowsSay :
    (capped 1 (inFrame false [])).framers[0]? = some (inFrame false [])
      ∧ (inFrame false []).phase = .inFrame ∧ (inFrame false []).esc = false
      ∧ hasRoom (capped 1 (inFrame false [])).params []
      ∧ ¬ hasRoom (capped 1 (inFrame false [0x41])).params [0x41]
      ∧ (0x11 : Byte) ∉ [0x10, 0x02, 0x03] :=
  ⟨rfl, rfl, rfl, fun c h => by cases h; decide, fun h => absurd (h 1 rfl) (by decide), by decide⟩
theorem witness_IdlePairsDoWhatTheirRowsSay :
    State.reset.framers[0]? = some Framer.reset ∧ Framer.reset.phase = .idle ∧ Framer.reset.esc = false
      ∧ (0x03 : Byte) ∉ [0x02, 0x10] := ⟨rfl, rfl, rfl, by decide⟩
theorem witness_PairRowIsFdeccOfItsBytes :
    State.reset.framers[0]? = some Framer.reset ∧ Framer.reset.esc = false := ⟨rfl, rfl⟩
/-- W7's stream. -/
theorem witness_RecoveryAfterDesync :
    State.reset.framers[0]? = some Framer.reset ∧ Framer.reset.phase = .idle ∧ Framer.reset.esc = false
      ∧ (0x10 : Byte) ∉ [0xAA, 0xBB] ∧ (0x55 : Byte) ∉ [0x10, 0x02, 0x03]
      ∧ State.reset.params.fits ([0x94, 0x06] : Bytes).length = true :=
  ⟨rfl, rfl, rfl, by decide, by decide, by decide⟩
theorem witness_RecvOfSend93RecoversTheFields :
    State.reset.framers[0]? = some { phase := .idle, esc := false, buf := [] } ∧ State.reset.params.dpMask = 0x03
      ∧ ([0x01, 0x02] : Bytes).length ≤ 244 ∧ (0x1F801 : BitVec 20).toNat ≤ 0x3FFFF
      ∧ State.reset.params.fits (14 + ([0x01, 0x02] : Bytes).length) = true :=
  ⟨rfl, rfl, by decide, by decide, by decide⟩

end Sys2Proof.Tests
end

section
/-! PROOFS of the statements of spec/10_state.md. First what helps (the invariant, the framer, the bundles of the stateless
units), then what `exec` and `step` can do, each said once, then the statements. -/

namespace Sys2Proof.Machine

/-! ### The invariant, part by part -/

@[simp] theorem Params.fits_zero (p : Params) : p.fits 0 = true := by
  unfold Params.fits
  split <;> simp

theorem Framer.ok_iff {p : Params} {f : Framer} :
    f.ok p = true ↔ (f.phase = .idle → f.buf = []) ∧ p.fits f.buf.length = true := by
  cases h : f.phase <;> simp [Framer.ok, h]

/-- R21: an empty buffer is legal in both phases. -/
theorem Framer.ok_of_buf_nil {p : Params} {f : Framer} (h : f.buf = []) : f.ok p = true :=
  Framer.ok_iff.mpr ⟨fun _ => h, by simp [h]⟩

theorem State.inv_iff {s : State} :
    s.inv = true ↔ s.params.ok = true ∧ s.framers ≠ [] ∧ (∀ f ∈ s.framers, f.ok s.params = true)
      ∧ ∀ r ∈ s.outbox, Result.ok s.params r = true := by
  simp [State.inv, and_assoc]

theorem State.inv_withInbox {s : State} (rest : List Input) : (s.withInbox rest).inv = s.inv := rfl

theorem State.inv_answer {s : State} {r : Result} (hs : s.inv = true) (hr : Result.ok s.params r = true) :
    (s.answer r).inv = true := by
  obtain ⟨hp, hne, hf, ho⟩ := State.inv_iff.mp hs
  refine State.inv_iff.mpr ⟨hp, hne, hf, fun q hq => ?_⟩
  obtain hq | rfl : q ∈ s.outbox ∨ q = r := by simpa using hq
  · exact ho q hq
  · exact hr

theorem State.inv_setFramer {s : State} {k : Nat} {g : Framer} (hs : s.inv = true) (hg : g.ok s.params = true) :
    (s.setFramer k g).inv = true := by
  obtain ⟨hp, hne, hf, ho⟩ := State.inv_iff.mp hs
  refine State.inv_iff.mpr ⟨hp, by simpa using hne, fun f hmem => ?_, ho⟩
  obtain hmem | rfl := List.mem_or_eq_of_mem_set hmem
  · exact hf f hmem
  · exact hg

theorem State.framer_ok_of_inv {s : State} {k : Nat} {f : Framer} (hs : s.inv = true) (hk : s.framers[k]? = some f) :
    f.ok s.params = true := by
  obtain ⟨-, -, hf, -⟩ := State.inv_iff.mp hs
  exact hf f (List.mem_of_getElem? hk)

/-! ### The framer keeps R21 and emits frames within the capacity -/

theorem appendData_ok {p : Params} {f : Framer} (b : Byte) (h : f.phase = .inFrame) :
    (appendData p f b).ok p = true := by
  cases hfit : p.fits (f.buf.length + 1) with
  | true =>
    rw [appendData_of_fits b hfit]
    exact Framer.ok_iff.mpr ⟨by simp [h], by simpa using hfit⟩
  | false =>
    rw [appendData_of_full b hfit]
    exact Framer.ok_of_buf_nil rfl

/-- R103: the buffer is not written while idle, and emptied at a start of frame. -/
theorem idleStep_buf_nil {p : Params} {f : Framer} (b : Byte) (h : f.buf = []) : (idleStep p f b).buf = [] := by
  unfold idleStep
  split
  · split
    · rfl
    · split
      · exact h
      · exact h
  · split
    · exact h
    · exact h

theorem inFrameStep_ok {p : Params} {f : Framer} (b : Byte) (hph : f.phase = .inFrame) (hf : f.ok p = true) :
    (inFrameStep p f b).1.ok p = true ∧ ∀ fr ∈ (inFrameStep p f b).2, p.fits fr.length = true := by
  obtain ⟨-, hfit⟩ := Framer.ok_iff.mp hf
  unfold inFrameStep
  split
  · split
    · exact ⟨appendData_ok DLE hph, by simp⟩
    · split
      · exact ⟨Framer.ok_of_buf_nil rfl, by simpa using hfit⟩
      · split
        · exact ⟨Framer.ok_of_buf_nil rfl, by simp⟩
        · exact ⟨Framer.ok_of_buf_nil rfl, by simp⟩
  · split
    · exact ⟨Framer.ok_iff.mpr ⟨by simp [hph], hfit⟩, by simp⟩
    · exact ⟨appendData_ok b hph, by simp⟩

theorem framerStep_ok {p : Params} {f : Framer} (b : Byte) (hf : f.ok p = true) :
    (framerStep p f b).1.ok p = true ∧ ∀ fr ∈ (framerStep p f b).2, p.fits fr.length = true := by
  obtain ⟨hidle, -⟩ := Framer.ok_iff.mp hf
  unfold framerStep
  cases hph : f.phase with
  | idle => exact ⟨Framer.ok_of_buf_nil (idleStep_buf_nil b (hidle hph)), by simp⟩
  | inFrame => exact inFrameStep_ok b hph hf

theorem framerDecode_ok {p : Params} {f : Framer} (chunk : Bytes) (hf : f.ok p = true) :
    (framerDecode p f chunk).1.ok p = true ∧ ∀ fr ∈ (framerDecode p f chunk).2, p.fits fr.length = true := by
  induction chunk generalizing f with
  | nil => exact ⟨hf, by simp⟩
  | cons b rest ih =>
    obtain ⟨hnext, hhead⟩ := framerStep_ok b hf
    obtain ⟨hlast, htail⟩ := ih hnext
    rw [framerDecode_cons]
    refine ⟨hlast, fun fr hmem => ?_⟩
    obtain hmem | hmem := List.mem_append.mp hmem
    · exact hhead fr hmem
    · exact htail fr hmem

/-! ### The bundles of the stateless units -/

/-- The result bundle with which an operation that may raise ends (`finish`). -/
def bundleOf {α : Type} (cmd : Instr) (bundle : α → Result) (x : Except Error α) : Result :=
  match x with
  | .ok a => bundle a
  | .error e => .error e (Config.diagnosticText cmd)

theorem finish_eq_answer {α : Type} (cmd : Instr) (bundle : α → Result) (x : Except Error α) (s : State) :
    finish cmd bundle x s = .next (s.answer (bundleOf cmd bundle x)) := by
  cases x <;> rfl

/-- R98: the checksum byte closes the sum of a sealed record. -/
theorem sum8_sealRecord (r : Bytes) : sum8 (sealRecord r) = 0 := by
  rw [sum8_eq_zero_iff]
  simp only [sealRecord, checksumOf, List.map_append, List.map_cons, List.map_nil, List.sum_append, List.sum_cons,
    List.sum_nil, BitVec.toNat_ofNat, sum8_toNat]
  omega

theorem preliminaryError_ok {p : Params} {f : Frame} {e : Error} (text : String) (h : preliminaryError f = some e) :
    Result.ok p (.error e text) = true := by
  obtain ⟨-, heq⟩ | ⟨-, hsum, heq⟩ | ⟨-, -, heq⟩ := preliminaryError_cases f
  · cases heq.symm.trans h
    rfl
  · cases heq.symm.trans h
    simpa [Result.ok] using hsum
  · cases heq.symm.trans h

theorem recordShape_recordFields (p : Params) (rt : RecordType) (f : Frame) (n : Nat) :
    recordShape (recordFields p rt f n) = true := by
  cases rt <;> rfl

theorem decodeBody_bundle_ok (q p : Params) (cmd : Instr) (rt : RecordType) (f : Frame) :
    Result.ok q (bundleOf cmd .record (decodeBody p rt f)) = true := by
  unfold decodeBody
  split
  · rfl
  · split
    · rfl
    · split
      · rfl
      · split
        · rfl
        · exact recordShape_recordFields p rt f _

theorem decodeTagged_bundle_ok (q p : Params) (cmd : Instr) (rt : RecordType) (f : Frame) :
    Result.ok q (bundleOf cmd .record (decodeTagged p rt f)) = true := by
  unfold decodeTagged
  cases h : preliminaryError f with
  | some e => exact preliminaryError_ok _ h
  | none => exact decodeBody_bundle_ok q p cmd rt f

theorem decodeUnsupported_bundle_ok (q : Params) (cmd : Instr) (f : Frame) :
    Result.ok q (bundleOf cmd .record (decodeUnsupported f)) = true := by
  unfold decodeUnsupported
  cases h : preliminaryError f with
  | some e => exact preliminaryError_ok _ h
  | none => rfl

/-- R87: RDEC of a frame with a record's tag is that tag's row. -/
theorem decodeRecord_of_tag {p : Params} {f : Frame} {rt : RecordType} (h : recordTypeOf (byteAt f 0) = some rt) :
    decodeRecord p f = decodeTagged p rt f := by
  unfold decodeRecord decodeTagged
  cases preliminaryError f <;> simp [h]

/-- R87, R92: RDEC of a frame with any other tag. -/
theorem decodeRecord_of_no_tag {p : Params} {f : Frame} (h : recordTypeOf (byteAt f 0) = none) :
    decodeRecord p f = decodeUnsupported f := by
  unfold decodeRecord decodeUnsupported
  cases preliminaryError f <;> simp [h]

theorem decodeRecord_bundle_ok (q p : Params) (cmd : Instr) (f : Frame) :
    Result.ok q (bundleOf cmd .record (decodeRecord p f)) = true := by
  cases h : recordTypeOf (byteAt f 0) with
  | some rt => rw [decodeRecord_of_tag h]; exact decodeTagged_bundle_ok q p cmd rt f
  | none => rw [decodeRecord_of_no_tag h]; exact decodeUnsupported_bundle_ok q cmd f

theorem encodeWith_bundle_ok (q : Params) (cmd : Instr) (most : Nat) (pgn : BitVec 20) (data : Bytes)
    (layout : BitVec 2 → Byte → Byte → Bytes) :
    Result.ok q (bundleOf cmd .encoded (encodeWith most pgn data layout)) = true := by
  obtain ⟨-, heq⟩ | ⟨-, -, heq⟩ | ⟨-, -, heq⟩ := encodeWith_cases most pgn data layout
  · rw [heq]; rfl
  · rw [heq]; rfl
  · rw [heq]; simp [bundleOf, Result.ok, sum8_sealRecord]

theorem splitPgn_bundle_ok (q : Params) (cmd : Instr) (pgn : BitVec 20) :
    Result.ok q (bundleOf cmd (fun x => .split x.1 x.2.1 x.2.2) (splitPgn pgn)) = true := by
  unfold splitPgn
  split <;> rfl

/-! ### What `exec` and `step` can do -/

/-- R22, R26: an instruction that names no instance answers one bundle, the same from every state with these parameters,
and the bundle is a legal one. -/
theorem exec_of_no_framer {i : Instr} (p : Params) (h : i.framer? = none) :
    ∃ r, Result.ok p r = true ∧ ∀ s : State, s.params = p → exec i s = .next (s.answer r) := by
  cases i with
  | cksum bytes => exact ⟨.checksumByte (checksumOf bytes), rfl, fun _ _ => rfl⟩
  | zsum bytes => exact ⟨.zeroSum (isZeroSum bytes), rfl, fun _ _ => rfl⟩
  | pgnc dp pf ps => exact ⟨.pgn (composePgn (dp.setWidth 8) pf ps), rfl, fun _ _ => rfl⟩
  | pgns pgn => exact ⟨_, splitPgn_bundle_ok p _ pgn, fun _ _ => finish_eq_answer ..⟩
  | rdec f => exact ⟨_, decodeRecord_bundle_ok p p _ f, by rintro s rfl; exact finish_eq_answer ..⟩
  | enc93 => exact ⟨_, encodeWith_bundle_ok p _ _ _ _ _, fun _ _ => finish_eq_answer ..⟩
  | enc94 => exact ⟨_, encodeWith_bundle_ok p _ _ _ _ _, fun _ _ => finish_eq_answer ..⟩
  | encd0 => exact ⟨_, encodeWith_bundle_ok p _ _ _ _ _, fun _ _ => finish_eq_answer ..⟩
  | fenc payload => exact ⟨.wire (framerEncode payload), rfl, fun _ _ => rfl⟩
  | dec93 rest => exact ⟨_, decodeTagged_bundle_ok p p _ _ _, by rintro s rfl; exact finish_eq_answer ..⟩
  | dec94 rest => exact ⟨_, decodeTagged_bundle_ok p p _ _ _, by rintro s rfl; exact finish_eq_answer ..⟩
  | decd0 rest => exact ⟨_, decodeTagged_bundle_ok p p _ _ _, by rintro s rfl; exact finish_eq_answer ..⟩
  | decUnsupported tag rest => exact ⟨_, decodeUnsupported_bundle_ok p _ _, fun _ _ => finish_eq_answer ..⟩
  | _ => cases h

/-- R110: one byte is a chunk of one byte. -/
theorem execFdecb_eq_execFdecc (k : Nat) (b : Byte) (s : State) : execFdecb k b s = execFdecc k [b] s := by
  simp [execFdecb, execFdecc, framerDecode_cons]

/-- An instruction that names instance `k` is its FRST or feeds it some bytes, as FDECC does (R54, R102, R110). -/
theorem exec_of_framer {i : Instr} {k : Nat} (h : i.framer? = some k) :
    i = .frst k ∨ ∃ chunk, ∀ s, exec i s = execFdecc k chunk s := by
  cases i with
  | fdecb j b => cases h; exact .inr ⟨[b], execFdecb_eq_execFdecc _ b⟩
  | fdecc j chunk => cases h; exact .inr ⟨chunk, fun _ => rfl⟩
  | frst j => cases h; exact .inl rfl
  | escDleLiteral j => cases h; exact .inr ⟨[DLE, DLE], fun _ => rfl⟩
  | escEtxEmit j => cases h; exact .inr ⟨[DLE, ETX], fun _ => rfl⟩
  | escStxRestart j => cases h; exact .inr ⟨[DLE, STX], fun _ => rfl⟩
  | escDesync j xx => cases h; exact .inr ⟨[DLE, xx], fun _ => rfl⟩
  | idleDleStxStart j => cases h; exact .inr ⟨[DLE, STX], fun _ => rfl⟩
  | idleDleDle j => cases h; exact .inr ⟨[DLE, DLE], fun _ => rfl⟩
  | idleDleOther j xx => cases h; exact .inr ⟨[DLE, xx], fun _ => rfl⟩
  | _ => cases h

/-- If `execFrst` answers a next state, the instance exists and was reset. -/
theorem execFrst_next {k : Nat} {s t : State} (h : execFrst k s = .next t) :
    ∃ f, s.framers[k]? = some f ∧ t = (s.setFramer k Framer.reset).answer .empty := by
  cases hf : s.framers[k]? with
  | none => simp [execFrst_of_none hf] at h
  | some f => exact ⟨f, rfl, by simpa [execFrst_of_some hf] using h.symm⟩

/-- An instruction that names instance `k` writes that instance and one bundle, both legal where the instance was. -/
theorem exec_next_of_framer {i : Instr} {k : Nat} {s t : State} (hk : i.framer? = some k) (h : exec i s = .next t) :
    ∃ f g r, s.framers[k]? = some f ∧ t = (s.setFramer k g).answer r
      ∧ (f.ok s.params = true → g.ok s.params = true ∧ Result.ok s.params r = true) := by
  obtain rfl | ⟨chunk, heq⟩ := exec_of_framer hk
  · obtain ⟨f, hf, rfl⟩ := execFrst_next h
    exact ⟨f, _, _, hf, rfl, fun _ => ⟨Framer.ok_of_buf_nil rfl, rfl⟩⟩
  · rw [heq] at h
    obtain ⟨f, hf, rfl⟩ := onFramer_next h
    refine ⟨f, _, _, hf, rfl, fun hok => ?_⟩
    obtain ⟨hg, hfs⟩ := framerDecode_ok chunk hok
    exact ⟨hg, by simpa [Result.ok] using hfs⟩

/-- Everything `exec` can do where it completes: one legal bundle appended, and the instance named, if any, written. -/
theorem exec_next_cases {i : Instr} {s t : State} (h : exec i s = .next t) :
    (∃ r, i.framer? = none ∧ t = s.answer r ∧ Result.ok s.params r = true)
      ∨ ∃ k f g r, i.framer? = some k ∧ s.framers[k]? = some f ∧ t = (s.setFramer k g).answer r
        ∧ (f.ok s.params = true → g.ok s.params = true ∧ Result.ok s.params r = true) := by
  cases hk : i.framer? with
  | none =>
    obtain ⟨r, hr, heq⟩ := exec_of_no_framer s.params hk
    rw [heq s rfl] at h
    cases h
    exact .inl ⟨r, rfl, rfl, hr⟩
  | some k =>
    obtain ⟨f, g, r, hf, ht, hok⟩ := exec_next_of_framer hk h
    exact .inr ⟨k, f, g, r, rfl, hf, ht, hok⟩

/-- Everything `step` can do where it completes: nothing, or `exec` of the unit taken (R13, R143). -/
theorem step_next_cases {s t : State} (h : step s = .next t) :
    (s.inbox = [] ∧ t = s)
      ∨ ∃ u rest i, s.inbox = u :: rest ∧ decode (s.context u.inst).1 (s.context u.inst).2 u = .ok i
        ∧ exec i (s.withInbox rest) = .next t := by
  unfold step at h
  split at h
  · next hin => cases h; exact .inl ⟨hin, rfl⟩
  · next u rest hin =>
    split at h
    · next i hdec => exact .inr ⟨u, rest, i, hin, hdec, h⟩
    · cases h

theorem exec_keeps_inv {i : Instr} {s t : State} (hs : s.inv = true) (h : exec i s = .next t) : t.inv = true := by
  obtain ⟨r, -, rfl, hr⟩ | ⟨k, f, g, r, -, hf, rfl, hok⟩ := exec_next_cases h
  · exact State.inv_answer hs hr
  · obtain ⟨hg, hr⟩ := hok (State.framer_ok_of_inv hs hf)
    exact State.inv_answer (State.inv_setFramer hs hg) hr

theorem exec_keeps_params {i : Instr} {s t : State} (h : exec i s = .next t) :
    t.params = s.params ∧ t.framers.length = s.framers.length := by
  obtain ⟨r, -, rfl, -⟩ | ⟨k, f, g, r, -, -, rfl, -⟩ := exec_next_cases h
  · exact ⟨rfl, rfl⟩
  · exact ⟨rfl, by simp⟩

/-! ### The statements -/

/-- Settles O9: `exec` keeps the invariant, and the inbox is no part of it. -/
theorem everyStepKeepsTheInvariant : Obligations.EveryStepKeepsTheInvariant := by
  intro s t hs h
  obtain ⟨-, rfl⟩ | ⟨u, rest, i, -, -, hexec⟩ := step_next_cases h
  · exact hs
  · exact exec_keeps_inv ((State.inv_withInbox rest).trans hs) hexec

/-- Settles O11. -/
theorem noStepChangesTheParameters : Obligations.NoStepChangesTheParameters := by
  intro s t h
  obtain ⟨-, rfl⟩ | ⟨u, rest, i, -, -, hexec⟩ := step_next_cases h
  · exact ⟨rfl, rfl⟩
  · exact exec_keeps_params (s := s.withInbox rest) hexec

/-- Settles O12: `exec` sets at most the instance named. -/
theorem otherInstancesAreUntouched : Obligations.OtherInstancesAreUntouched := by
  intro i s t k h hk
  obtain ⟨r, -, rfl, -⟩ | ⟨j, f, g, r, hj, -, rfl, -⟩ := exec_next_cases h
  · rfl
  · have hne : j ≠ k := fun heq => hk (heq ▸ hj)
    simp [List.getElem?_set_ne hne]

/-- Settles O13. -/
theorem statelessResultsDependOnOperandsAlone : Obligations.StatelessResultsDependOnOperandsAlone := by
  intro i s s' hi hp
  obtain ⟨r, -, heq⟩ := exec_of_no_framer s.params hi
  exact ⟨r, heq s rfl, heq s' hp.symm⟩

/-- Settles O7. -/
theorem resetLeavesEveryInstanceIdleAndEmpty : Obligations.ResetLeavesEveryInstanceIdleAndEmpty := by
  intro p n k hk
  rw [make_framers, List.getElem?_replicate_of_lt hk]
  rfl

end Sys2Proof.Machine
end

section
/-! PROOFS of the statements of spec/30_encoding.md: a selector outside R50's table is refused, and a completed operation
returns one bundle. -/

namespace Sys2Proof.Machine

/-! ### Bytes that spell no command -/

/-- R52: a byte spells no operation exactly where R50's OP column does not list it. -/
theorem ofSelector?_eq_none {b : Byte} : Opcode.ofSelector? b = none ↔ b ∉ Opcode.all.map Opcode.selector := by
  simp [Opcode.ofSelector?]

theorem decodeCommand_of_unlisted {op : Byte} (i : Nat) (operands : Bytes) (h : op ∉ Opcode.all.map Opcode.selector) :
    decodeCommand i (op :: operands) = .error (.unknownSelector op) := by
  simp [decodeCommand, ofSelector?_eq_none.mpr h]

/-- A unit that spells no instruction is refused by its name, whatever is waiting behind it. -/
theorem step_of_undecoded {s : State} {u : Input} {rest : List Input} {e : Undecoded} (hin : s.inbox = u :: rest)
    (hdec : decode (s.context u.inst).1 (s.context u.inst).2 u = .error e) : step s = .refused (refusalOf e) := by
  simp [step, hin, hdec]

/-! ### The statements -/

/-- Settles O14: `exec` appends one bundle, and writing an instance touches neither what is waiting nor the results. -/
theorem everyOperationReturnsOneBundle : Obligations.EveryOperationReturnsOneBundle := by
  intro i s t h
  obtain ⟨r, -, rfl, -⟩ | ⟨k, f, g, r, -, -, rfl, -⟩ := exec_next_cases h
  · exact ⟨rfl, r, rfl⟩
  · exact ⟨rfl, r, rfl⟩

/-- Settles O2: the twelve selectors are the OP column, and the command port looks at the selector first. -/
theorem stepRefusesUnknownSelector : Obligations.StepRefusesUnknownSelector := by
  intro s k op operands rest hin hop
  exact step_of_undecoded hin (decodeCommand_of_unlisted k operands hop)

end Sys2Proof.Machine
end

section
/-! PROOFS of the statements of spec/40_checksum.md: CKSUM returns the byte that closes the sum, ZSUM tests whether the sum
is closed, and the two agree. -/

namespace Sys2Proof.Machine

/-! ### The sum, the checksum byte and the zero test, in terms of `byteSum` -/

/-- R11: `sum8` is the unbounded sum reduced mod 256. -/
theorem sum8_toNat_eq_byteSum_mod (s : Bytes) : (sum8 s).toNat = byteSum s % 256 := sum8_toNat s

theorem sum8_eq_zero_iff_byteSum (s : Bytes) : sum8 s = 0 ↔ byteSum s % 256 = 0 := sum8_eq_zero_iff s

/-- R76: the pseudocode's outer `mod 256` only turns 256 into 0, which the 8-bit result does by itself. -/
theorem checksumOf_eq_ofNat_byteSum (s : Bytes) : checksumOf s = BitVec.ofNat 8 (256 - byteSum s % 256) := by
  apply BitVec.eq_of_toNat_eq
  simp [checksumOf, sum8_toNat_eq_byteSum_mod]

/-- R76, the second corner case, and its converse. -/
theorem checksumOf_eq_zero_iff (s : Bytes) : checksumOf s = 0 ↔ sum8 s = 0 := by
  rw [sum8_eq_zero_iff_byteSum, checksumOf_eq_ofNat_byteSum, ← BitVec.toNat_inj]
  simp only [BitVec.ofNat_eq_ofNat, BitVec.toNat_ofNat]
  omega

/-- R77 in terms of the unbounded sum. -/
theorem isZeroSum_eq_ite_byteSum (s : Bytes) : isZeroSum s = if byteSum s % 256 = 0 then 1 else 0 := by
  simp only [isZeroSum, sum8_eq_zero_iff_byteSum]

theorem isZeroSum_eq_one_iff (s : Bytes) : isZeroSum s = 1 ↔ sum8 s = 0 := by
  by_cases h : sum8 s = 0 <;> simp [isZeroSum, h]

/-- R76, R77: a sequence with its checksum byte at its end passes the zero test, as a sealed record does (R98). -/
theorem isZeroSum_append_checksumOf (s : Bytes) : isZeroSum (s ++ [checksumOf s]) = 1 :=
  (isZeroSum_eq_one_iff _).mpr (sum8_sealRecord s)

/-! ### The two operations -/

theorem exec_cksum (bytes : Bytes) (s : State) :
    exec (.cksum bytes) s = .next { s with outbox := s.outbox ++ [.checksumByte (checksumOf bytes)] } := rfl

theorem exec_zsum (bytes : Bytes) (s : State) :
    exec (.zsum bytes) s = .next { s with outbox := s.outbox ++ [.zeroSum (isZeroSum bytes)] } := rfl

/-- ZSUM's next state tells its result: its bundle is the last one of the outbox. -/
theorem exec_zsum_eq_next_iff (bytes : Bytes) (s : State) (z : BitVec 1) :
    exec (.zsum bytes) s = .next { s with outbox := s.outbox ++ [.zeroSum z] } ↔ isZeroSum bytes = z := by
  simp [exec_zsum]

/-! ### The statements -/

/-- Settles O19: the byte is `checksumOf bytes`, and both `isZeroSum bytes = 1` and `checksumOf bytes = 0` say that the sum
is closed. -/
theorem checksumByteClosesTheSum : Obligations.ChecksumByteClosesTheSum := by
  intro bytes s
  refine ⟨checksumOf bytes, exec_cksum bytes s, ?closes, ?zero_iff⟩
  case closes => exact (exec_zsum_eq_next_iff _ s 1).mpr (isZeroSum_append_checksumOf bytes)
  case zero_iff =>
    calc exec (.zsum bytes) s = .next { s with outbox := s.outbox ++ [.zeroSum 1] }
        ↔ isZeroSum bytes = 1 := exec_zsum_eq_next_iff bytes s 1
      _ ↔ sum8 bytes = 0 := isZeroSum_eq_one_iff bytes
      _ ↔ checksumOf bytes = 0 := (checksumOf_eq_zero_iff bytes).symm

/-- Settles O17. -/
theorem cksumReturnsTheAdditiveInverse : Obligations.CksumReturnsTheAdditiveInverse := by
  intro bytes s
  rw [exec_cksum, checksumOf_eq_ofNat_byteSum]

/-- Settles O18. -/
theorem zsumTestsTheSum : Obligations.ZsumTestsTheSum := by
  intro bytes s
  rw [exec_zsum, isZeroSum_eq_ite_byteSum]

end Sys2Proof.Machine
end

section
/-! PROOFS of the statements of spec/41_pgn.md: the PGN that PGNC composes and the fields that PGNS splits off, both in
natural numbers, and the three round-trip laws. -/

namespace Sys2Proof.Machine

/-! ### Composing -/

/-- R80: a PGN is the low 20 bits of its three fields side by side, with PDU Specific left out in PDU1. -/
theorem composePgn_eq_le24 (dp pf ps : Byte) :
    composePgn dp pf ps = (le24 (if 240 ≤ pf.toNat then ps else 0) pf dp).setWidth 20 := by
  have hjoin (low : Byte) : dp.setWidth 20 <<< 16 ||| pf.setWidth 20 <<< 8 ||| low.setWidth 20
      = (le24 low pf dp).setWidth 20 := by
    ext k hk
    simp [le24]
    ac_rfl
  by_cases h : 240 ≤ pf.toNat
  · simp only [composePgn, isPdu2, h, decide_true, if_true, hjoin]
  · simp [composePgn, isPdu2, h, ← hjoin]

theorem composePgn_toNat (dp pf ps : Byte) :
    (composePgn dp pf ps).toNat =
      (dp.toNat * 65536 + pf.toNat * 256 + if 240 ≤ pf.toNat then ps.toNat else 0) % 2 ^ 20 := by
  rw [composePgn_eq_le24, BitVec.toNat_setWidth, le24_toNat, apply_ite BitVec.toNat,
    show (0 : Byte).toNat = 0 from rfl]
  omega

/-- R80 with the two bits of Data Page that PGNC's operand holds: no bit is lost. -/
theorem composePgn_setWidth_toNat (dp : BitVec 2) (pf ps : Byte) :
    (composePgn (dp.setWidth 8) pf ps).toNat =
      dp.toNat * 65536 + pf.toNat * 256 + if 240 ≤ pf.toNat then ps.toNat else 0 := by
  have hdp := dp.isLt
  have hpf := pf.isLt
  have hps := ps.isLt
  rw [composePgn_toNat, BitVec.toNat_setWidth]
  split <;> omega

/-! ### Splitting -/

/-- R82: the two bits that PGNS tests are clear exactly up to 0x3FFFF. -/
theorem extractLsb'_18_2_eq_zero_iff (pgn : BitVec 20) : pgn.extractLsb' 18 2 = 0 ↔ pgn.toNat ≤ 0x3FFFF := by
  have h := pgn.isLt
  rw [← BitVec.toNat_inj, BitVec.extractLsb'_toNat, Nat.shiftRight_eq_div_pow]
  simp only [BitVec.ofNat_eq_ofNat, BitVec.toNat_ofNat]
  omega

theorem splitPgn_of_le {pgn : BitVec 20} (h : pgn.toNat ≤ 0x3FFFF) :
    splitPgn pgn =
      .ok (BitVec.ofNat 2 (pgn.toNat / 65536), BitVec.ofNat 8 (pgn.toNat / 256), BitVec.ofNat 8 pgn.toNat) := by
  rw [splitPgn, if_neg (not_not.mpr ((extractLsb'_18_2_eq_zero_iff pgn).mpr h))]
  simp [BitVec.extractLsb', Nat.shiftRight_eq_div_pow]

theorem splitPgn_of_gt {pgn : BitVec 20} (h : 0x3FFFF < pgn.toNat) : splitPgn pgn = .error (.encodeRange .pgn) := by
  rw [splitPgn, if_pos (mt (extractLsb'_18_2_eq_zero_iff pgn).mp (by omega))]

/-- R82 read backwards: a PGN splits into any three fields whose places add up to it. -/
theorem splitPgn_of_toNat {pgn : BitVec 20} {dp : BitVec 2} {pf ps : Byte}
    (h : pgn.toNat = dp.toNat * 65536 + pf.toNat * 256 + ps.toNat) : splitPgn pgn = .ok (dp, pf, ps) := by
  have hdp : BitVec.ofNat 2 (pgn.toNat / 65536) = dp := BitVec.eq_of_toNat_eq (by rw [BitVec.toNat_ofNat]; omega)
  have hpf : BitVec.ofNat 8 (pgn.toNat / 256) = pf := BitVec.eq_of_toNat_eq (by rw [BitVec.toNat_ofNat]; omega)
  have hps : BitVec.ofNat 8 pgn.toNat = ps := BitVec.eq_of_toNat_eq (by rw [BitVec.toNat_ofNat]; omega)
  rw [splitPgn_of_le (by omega), hdp, hpf, hps]

/-! ### Round trips -/

theorem recomposedPgn_toNat {pgn : BitVec 20} (h : pgn.toNat ≤ 0x3FFFF) :
    (recomposedPgn pgn).toNat =
      pgn.toNat / 256 * 256 + if 240 ≤ pgn.toNat / 256 % 256 then pgn.toNat % 256 else 0 := by
  unfold recomposedPgn
  split
  · omega
  · have hlow : (pgn.toNat &&& 0x3FF00) % 256 = 0 := by
      simpa using Nat.and_mod_two_pow (a := pgn.toNat) (b := 0x3FF00) (n := 8)
    have hhigh : (pgn.toNat &&& 0x3FF00) / 256 = pgn.toNat / 256 % 1024 :=
      (Nat.and_div_two_pow (n := 8)).trans (Nat.and_two_pow_sub_one_eq_mod _ 10)
    rw [BitVec.toNat_and, show (0x3FF00 : BitVec 20).toNat = 0x3FF00 from rfl]
    omega

/-- R84: the fields a PGN splits into compose to it, its low byte cleared in PDU1. -/
theorem composePgn_of_fields {pgn : BitVec 20} {dp pf ps : Byte} (h : pgn.toNat ≤ 0x3FFFF)
    (hdp : dp.toNat = pgn.toNat / 65536) (hpf : pf.toNat = pgn.toNat / 256 % 256) (hps : ps.toNat = pgn.toNat % 256) :
    composePgn dp pf ps = recomposedPgn pgn := by
  apply BitVec.eq_of_toNat_eq
  rw [composePgn_toNat, recomposedPgn_toNat h, hdp, hpf, hps]
  split <;> omega

/-- R80, R82: splitting a composed PGN gives the fields back, PDU Specific only in PDU2. -/
theorem splitPgn_composePgn (dp : BitVec 2) (pf ps : Byte) :
    splitPgn (composePgn (dp.setWidth 8) pf ps) = .ok (dp, pf, if 240 ≤ pf.toNat then ps else 0) := by
  refine splitPgn_of_toNat ?_
  rw [composePgn_setWidth_toNat, apply_ite BitVec.toNat]
  rfl

/-! ### The two operations -/

theorem exec_pgnc (dp : BitVec 2) (pf ps : Byte) (s : State) :
    exec (.pgnc dp pf ps) s = .next { s with outbox := s.outbox ++ [.pgn (composePgn (dp.setWidth 8) pf ps)] } := rfl

theorem exec_pgns (pgn : BitVec 20) (s : State) :
    exec (.pgns pgn) s = finish (.pgns pgn) (fun x => .split x.1 x.2.1 x.2.2) (splitPgn pgn) s := rfl

theorem exec_pgns_of_ok {pgn : BitVec 20} {dp : BitVec 2} {pf ps : Byte} (h : splitPgn pgn = .ok (dp, pf, ps))
    (s : State) : exec (.pgns pgn) s = .next { s with outbox := s.outbox ++ [.split dp pf ps] } := by
  rw [exec_pgns, h, finish_ok]
  rfl

theorem exec_pgns_of_error {pgn : BitVec 20} {e : Error} (h : splitPgn pgn = .error e) (s : State) :
    exec (.pgns pgn) s =
      .next { s with outbox := s.outbox ++ [.error e (Config.diagnosticText (.pgns pgn))] } := by
  rw [exec_pgns, h, finish_error]
  rfl

/-! ### The statements -/

/-- Settles O21: both clauses read the composed sum, in which PDU Format below 240 leaves PDU Specific out and
PDU Format from 240 on has its upper four bits set. -/
theorem pgncResultsStayInRange : Obligations.PgncResultsStayInRange := by
  intro dp pf ps s
  have hdp := dp.isLt
  have hpf := pf.isLt
  have hps := ps.isLt
  refine ⟨_, exec_pgnc dp pf ps s, ?_⟩
  rw [composePgn_setWidth_toNat]
  refine ⟨?range, fun hpdu1 => ?low_byte, fun hpdu2 => ?high_bits⟩
  case range => split <;> omega
  case low_byte => rw [if_neg (by omega)]; omega
  case high_bits => rw [if_pos hpdu2]; omega

/-- Settles O23: composing undoes splitting up to `recomposedPgn`, splitting undoes composing. -/
theorem pgnRoundTripLaws : Obligations.PgnRoundTripLaws := by
  refine ⟨fun pgn s h => ?split_first, fun dp pf ps s => ?compose_first⟩
  case split_first =>
    refine ⟨_, _, _, exec_pgns_of_ok (splitPgn_of_le h) s, ?_⟩
    have hdp : ((BitVec.ofNat 2 (pgn.toNat / 65536)).setWidth 8).toNat = pgn.toNat / 65536 := by
      rw [BitVec.toNat_setWidth, BitVec.toNat_ofNat]; omega
    rw [exec_pgnc, composePgn_of_fields h hdp (BitVec.toNat_ofNat ..) (BitVec.toNat_ofNat ..)]
  case compose_first => exact ⟨_, exec_pgnc dp pf ps s, exec_pgns_of_ok (splitPgn_composePgn dp pf ps) s⟩

/-- Settles O20. -/
theorem pgncComposesThePgn : Obligations.PgncComposesThePgn := by
  intro dp pf ps s
  rw [exec_pgnc, ← composePgn_setWidth_toNat dp pf ps, BitVec.ofNat_toNat, BitVec.setWidth_eq]

/-- Settles O22. -/
theorem pgnsSplitsOrRaises : Obligations.PgnsSplitsOrRaises := by
  intro pgn s
  split
  · next h => exact exec_pgns_of_error (splitPgn_of_gt h) s
  · next h => exact exec_pgns_of_ok (splitPgn_of_le (by omega)) s

end Sys2Proof.Machine
end

section
/-! PROOFS of the statements of spec/42_record_codec.md on the 0xD0 row and the row of the other tags, on the three encoders,
and on decoding what they write. Each encoder's record is a header, the data and the checksum byte: the encoder writes the
header given here in natural numbers, and the decoder reads it back. -/

namespace Sys2Proof.Machine

/-! ### Bytes and bit fields in natural numbers -/

/-- R10: a bit field is a quotient reduced to the field's width. -/
theorem extractLsb'_eq_ofNat {w : Nat} (v : BitVec w) (i k : Nat) :
    v.extractLsb' i k = BitVec.ofNat k (v.toNat / 2 ^ i) := by
  simp [BitVec.extractLsb', Nat.shiftRight_eq_div_pow]

theorem extractLsb'_eq_of_toNat {w k : Nat} {v : BitVec w} {x : BitVec k} {i : Nat}
    (h : v.toNat / 2 ^ i % 2 ^ k = x.toNat) : v.extractLsb' i k = x := by
  rw [extractLsb'_eq_ofNat]
  exact BitVec.eq_of_toNat_eq ((BitVec.toNat_ofNat ..).trans h)

theorem byteOf_eq_ofNat {w : Nat} (v : BitVec w) (k : Nat) : byteOf v k = BitVec.ofNat 8 (v.toNat / 2 ^ (8 * k)) :=
  extractLsb'_eq_ofNat v (8 * k) 8

theorem le32Bytes_eq_ofNat (t : BitVec 32) :
    le32Bytes t = [BitVec.ofNat 8 t.toNat, BitVec.ofNat 8 (t.toNat / 256), BitVec.ofNat 8 (t.toNat / 65536),
      BitVec.ofNat 8 (t.toNat / 16777216)] := by
  simp [le32Bytes, byteOf_eq_ofNat]

theorem le32Of_toNat (a b c d : Byte) :
    (le32Of a b c d).toNat = a.toNat + b.toNat * 256 + c.toNat * 65536 + d.toNat * 16777216 :=
  le32_toNat [a, b, c, d] 0

theorem le32Of_eq_ofNat (a b c d : Byte) :
    le32Of a b c d = BitVec.ofNat 32 (a.toNat + b.toNat * 256 + c.toNat * 65536 + d.toNat * 16777216) := by
  rw [← le32Of_toNat, BitVec.ofNat_toNat, BitVec.setWidth_eq]

/-- R36: a timestamp is read back from the four bytes it is written as. -/
theorem le32Of_ofNat_bytes (t : BitVec 32) :
    le32Of (BitVec.ofNat 8 t.toNat) (BitVec.ofNat 8 (t.toNat / 256)) (BitVec.ofNat 8 (t.toNat / 65536))
      (BitVec.ofNat 8 (t.toNat / 16777216)) = t := by
  have ht := t.isLt
  apply BitVec.eq_of_toNat_eq
  simp only [le32Of_toNat, BitVec.toNat_ofNat]
  omega

theorem composePgn_eq_ofNat (dp pf ps : Byte) :
    composePgn dp pf ps =
      BitVec.ofNat 20 (dp.toNat * 65536 + pf.toNat * 256 + if 240 ≤ pf.toNat then ps.toNat else 0) :=
  BitVec.eq_of_toNat_eq (by rw [composePgn_toNat, BitVec.toNat_ofNat])

/-- R64: the Data Page bits of a byte. -/
theorem and_three_toNat (b : Byte) : (b &&& 3).toNat = b.toNat % 4 := by
  rw [BitVec.toNat_and]
  exact Nat.and_two_pow_sub_one_eq_mod b.toNat 2

/-- R64: Data Page below, priority above it. -/
theorem dppByte_toNat (priority : BitVec 3) (dp : BitVec 2) :
    (dppByte priority dp).toNat = priority.toNat * 4 + dp.toNat := by
  have hpr := priority.isLt
  have hdp := dp.isLt
  simp only [dppByte, BitVec.toNat_or, BitVec.toNat_shiftLeft, BitVec.toNat_setWidth]
  rw [Nat.mod_eq_of_lt (a := priority.toNat) (by omega), Nat.mod_eq_of_lt (a := dp.toNat) (by omega),
    Nat.mod_eq_of_lt (by rw [Nat.shiftLeft_eq]; omega), Nat.or_comm, or_shift_toNat (k := 2) (by omega)]
  omega

/-- R65: the four control fields, the reserved bit 2 clear. -/
theorem controlByte_toNat (dir : BitVec 1) (mc : BitVec 2) (so : BitVec 1) (fps : BitVec 3) :
    (controlByte dir mc so fps).toNat = mc.toNat + dir.toNat * 8 + so.toNat * 16 + fps.toNat * 32 := by
  have hdir := dir.isLt
  have hmc := mc.isLt
  have hso := so.isLt
  have hfps := fps.isLt
  simp only [controlByte, BitVec.toNat_or, BitVec.toNat_shiftLeft, BitVec.toNat_setWidth]
  rw [Nat.mod_eq_of_lt (a := mc.toNat) (by omega), Nat.mod_eq_of_lt (a := dir.toNat) (by omega),
    Nat.mod_eq_of_lt (a := so.toNat) (by omega), Nat.mod_eq_of_lt (a := fps.toNat) (by omega),
    Nat.mod_eq_of_lt (a := dir.toNat <<< 3) (by rw [Nat.shiftLeft_eq]; omega),
    Nat.mod_eq_of_lt (a := so.toNat <<< 4) (by rw [Nat.shiftLeft_eq]; omega),
    Nat.mod_eq_of_lt (a := fps.toNat <<< 5) (by rw [Nat.shiftLeft_eq]; omega), or_shift_toNat (k := 3) (by omega),
    or_shift_toNat (k := 4) (by omega), or_shift_toNat (k := 5) (by omega)]
  omega

/-- The Data Page byte that ENC93 and ENC94 write: no bit of a PGN in range is lost in the two-bit field. -/
theorem setWidth_dataPage {pgn : BitVec 20} (h : pgn.toNat ≤ 0x3FFFF) :
    (BitVec.ofNat 2 (pgn.toNat / 65536)).setWidth 8 = BitVec.ofNat 8 (pgn.toNat / 65536) := by
  apply BitVec.eq_of_toNat_eq
  simp only [BitVec.toNat_setWidth, BitVec.toNat_ofNat]
  omega

/-! ### Decoding a frame whose sum and lengths agree -/

/-- R88, R93: a frame of type `rt` whose length, declared length and declared data length all stand for `n` data bytes. -/
structure LengthsAgree (rt : RecordType) (f : Frame) (n : Nat) : Prop where
  length : f.length = lenEnd rt + headerSize rt + 1 + n
  declared : expectedLength rt (declaredLength rt f) = f.length
  data : declaredData rt f = n

theorem preliminaryError_eq_none_iff {f : Frame} : preliminaryError f = none ↔ f ≠ [] ∧ sum8 f = 0 := by
  obtain ⟨hnil, heq⟩ | ⟨-, hsum, heq⟩ | ⟨hne, hsum, heq⟩ := preliminaryError_cases f
  · rw [heq]; simp [hnil]
  · rw [heq]; simp only [reduceCtorEq, hsum, and_false]
  · exact iff_of_true heq ⟨hne, hsum⟩

theorem decodeBody_of_lengthsAgree {rt : RecordType} {f : Frame} {n : Nat} (p : Params) (h : LengthsAgree rt f n) :
    decodeBody p rt f = .ok (recordFields p rt f n) := by
  have hlen := h.length
  have hn : f.length - (lenEnd rt + headerSize rt + 1) = n := by omega
  rw [decodeBody, if_neg (by omega), if_neg (by simp [h.declared]), if_neg (by omega), hn,
    if_neg (by simp [h.data])]

theorem decodeTagged_of_lengthsAgree {rt : RecordType} {f : Frame} {n : Nat} (p : Params) (hsum : sum8 f = 0)
    (h : LengthsAgree rt f n) : decodeTagged p rt f = .ok (recordFields p rt f n) := by
  have hne : f ≠ [] := List.ne_nil_of_length_pos (by rw [h.length]; omega)
  rw [decodeTagged, preliminaryError_eq_none_iff.mpr ⟨hne, hsum⟩]
  exact decodeBody_of_lengthsAgree p h

theorem slice_append_append (header data tail : Bytes) :
    slice (header ++ data ++ tail) header.length data.length = data := by
  simp [slice]

/-! ### The fields of a frame of each layout -/

/-- R89: the fields of a 0x93 frame by the names of its bytes. -/
theorem fields93_of_bytes (p : Params) (tag l pr ps pf dp dst src t0 t1 t2 t3 dlen : Byte) (data tail : Bytes) :
    fields93 p ([tag, l, pr, ps, pf, dp, dst, src, t0, t1, t2, t3, dlen] ++ data ++ tail) data.length =
      { recordType := .type93, pgn := composePgn (dp &&& p.dpMask) pf ps, priority := pr.extractLsb' 0 3,
        source := some src, destination := dst, timestamp := some (le32Of t0 t1 t2 t3), payloadData := data,
        direction := none, messageClass := none, sourceOrigin := none, fastPacketSequence := none } := by
  have hdata := slice_append_append [tag, l, pr, ps, pf, dp, dst, src, t0, t1, t2, t3, dlen] data tail
  rw [fields93, show slice _ 13 _ = data from hdata]
  rfl

/-- R90: the fields of a 0x94 frame by the names of its bytes. -/
theorem fields94_of_bytes (p : Params) (tag l pr ps pf dp dst dlen : Byte) (data tail : Bytes) :
    fields94 p ([tag, l, pr, ps, pf, dp, dst, dlen] ++ data ++ tail) data.length =
      { recordType := .type94, pgn := composePgn (dp &&& p.dpMask) pf ps, priority := pr.extractLsb' 0 3,
        source := none, destination := dst, timestamp := none, payloadData := data, direction := none,
        messageClass := none, sourceOrigin := none, fastPacketSequence := none } := by
  have hdata := slice_append_append [tag, l, pr, ps, pf, dp, dst, dlen] data tail
  rw [fields94, show slice _ 8 _ = data from hdata]
  rfl

/-- R91: the fields of a 0xD0 frame by the names of its bytes. -/
theorem fieldsD0_of_bytes (tag l0 l1 dst src ps pf dpp ctl t0 t1 t2 t3 : Byte) (data tail : Bytes) :
    fieldsD0 ([tag, l0, l1, dst, src, ps, pf, dpp, ctl, t0, t1, t2, t3] ++ data ++ tail) data.length =
      { recordType := .typeD0, pgn := composePgn (dpp &&& 3) pf ps, priority := dpp.extractLsb' 2 3,
        source := some src, destination := dst, timestamp := some (le32Of t0 t1 t2 t3), payloadData := data,
        direction := some (ctl.extractLsb' 3 1), messageClass := some (ctl.extractLsb' 0 2),
        sourceOrigin := some (ctl.extractLsb' 4 1), fastPacketSequence := some (ctl.extractLsb' 5 3) } := by
  have hdata := slice_append_append [tag, l0, l1, dst, src, ps, pf, dpp, ctl, t0, t1, t2, t3] data tail
  rw [fieldsD0, show slice _ 13 _ = data from hdata]
  rfl

theorem length_header_data_ck (header data : Bytes) (ck : Byte) :
    (header ++ data ++ [ck]).length = header.length + 1 + data.length := by
  simp only [List.length_append, List.length_singleton]
  omega

/-- R60, R89: in the 0x93 layout the length byte and the data length byte must both stand for the data. -/
theorem lengthsAgree_type93 {l pr ps pf dp dst src t0 t1 t2 t3 dlen ck : Byte} {data : Bytes}
    (hl : l.toNat = 11 + data.length) (hdlen : dlen.toNat = data.length) :
    LengthsAgree .type93 ([0x93, l, pr, ps, pf, dp, dst, src, t0, t1, t2, t3, dlen] ++ data ++ [ck]) data.length where
  length := length_header_data_ck ..
  declared := by
    rw [length_header_data_ck]
    change l.toNat + 3 = 14 + data.length
    omega
  data := hdlen

/-- R60, R90: the same of the 0x94 layout. -/
theorem lengthsAgree_type94 {l pr ps pf dp dst dlen ck : Byte} {data : Bytes}
    (hl : l.toNat = 6 + data.length) (hdlen : dlen.toNat = data.length) :
    LengthsAgree .type94 ([0x94, l, pr, ps, pf, dp, dst, dlen] ++ data ++ [ck]) data.length where
  length := length_header_data_ck ..
  declared := by
    rw [length_header_data_ck]
    change l.toNat + 3 = 9 + data.length
    omega
  data := hdlen

/-- R60, R66: in the 0xD0 layout the data length follows from the one length field. -/
theorem lengthsAgree_typeD0 {l0 l1 dst src ps pf dpp ctl t0 t1 t2 t3 ck : Byte} {data : Bytes}
    (hl : l0.toNat + 256 * l1.toNat = 13 + data.length) :
    LengthsAgree .typeD0 ([0xD0, l0, l1, dst, src, ps, pf, dpp, ctl, t0, t1, t2, t3] ++ data ++ [ck]) data.length := by
  have hdecl : declaredLength .typeD0 ([0xD0, l0, l1, dst, src, ps, pf, dpp, ctl, t0, t1, t2, t3] ++ data ++ [ck])
      = 13 + data.length := (le16_toNat _ 1).trans hl
  refine ⟨length_header_data_ck .., ?declared, ?data⟩
  case declared =>
    rw [hdecl, length_header_data_ck]
    change 13 + data.length + 1 = 14 + data.length
    omega
  case data =>
    change declaredLength .typeD0 _ - 13 = data.length
    omega

/-! ### The decode rows -/

theorem exec_rdec (f : Frame) (s : State) :
    exec (.rdec f) s = finish (.rdec f) .record (decodeRecord s.params f) s := rfl

/-- R87, R91: DECD0 is RDEC of the frame with its tag. -/
theorem exec_decd0_eq_exec_rdec (rest : Bytes) (s : State) : exec (.decd0 rest) s = exec (.rdec (0xD0 :: rest)) s := by
  rw [exec_rdec, decodeRecord_of_tag (rt := .typeD0) rfl]
  rfl

/-- R88: RDEC of a frame with a record's tag whose sum and lengths agree answers the record of its fields. -/
theorem exec_rdec_of_lengthsAgree {rt : RecordType} {f : Frame} {n : Nat} {s : State} {fields : BstRecord}
    (htag : byteAt f 0 = recordTag rt) (hsum : sum8 f = 0) (h : LengthsAgree rt f n)
    (hfields : recordFields s.params rt f n = fields) :
    exec (.rdec f) s = .next { s with outbox := s.outbox ++ [.record fields] } := by
  rw [exec_rdec, decodeRecord_of_tag (recordTypeOf_eq_some.mpr htag), decodeTagged_of_lengthsAgree s.params hsum h,
    hfields]
  rfl

theorem exec_decUnsupported_of_sum_zero {tag : Byte} {rest : Bytes} (s : State) (hsum : sum8 (tag :: rest) = 0) :
    exec (.decUnsupported tag rest) s =
      .next { s with outbox := s.outbox ++
        [.error (.unsupportedType tag) (Config.diagnosticText (.rdec (tag :: rest)))] } := by
  have hdec : decodeUnsupported (tag :: rest) = .error (.unsupportedType tag) := by
    rw [decodeUnsupported, preliminaryError_eq_none_iff.mpr ⟨List.cons_ne_nil tag rest, hsum⟩]
    rfl
  change finish (.rdec (tag :: rest)) .record (decodeUnsupported (tag :: rest)) s = _
  rw [hdec]
  rfl

/-! ### The encoders -/

/-- R98: what an encoder answers, once its record without the checksum byte is known for every PGN in range. -/
theorem finish_encodeWith {most : Nat} {pgn : BitVec 20} {data : Bytes} {layout : BitVec 2 → Byte → Byte → Bytes}
    {r : Bytes} (cmd : Instr) (s : State)
    (hr : pgn.toNat ≤ 0x3FFFF →
      layout (BitVec.ofNat 2 (pgn.toNat / 65536)) (BitVec.ofNat 8 (pgn.toNat / 256)) (BitVec.ofNat 8 pgn.toNat) ++ data
        = r) :
    finish cmd .encoded (encodeWith most pgn data layout) s =
      .next { s with outbox := s.outbox ++ [
        if most < data.length then .error (.encodeRange .data) (Config.diagnosticText cmd)
        else if 0x3FFFF < pgn.toNat then .error (.encodeRange .pgn) (Config.diagnosticText cmd)
        else .encoded (sealRecord r)] } := by
  unfold encodeWith
  by_cases hdata : most < data.length
  · rw [if_pos hdata, if_pos hdata]
    rfl
  · rw [if_neg hdata, if_neg hdata]
    by_cases hpgn : 0x3FFFF < pgn.toNat
    · rw [splitPgn_of_gt hpgn, if_pos hpgn]
      rfl
    · have hle : pgn.toNat ≤ 0x3FFFF := by omega
      rw [splitPgn_of_le hle, if_neg hpgn, ← hr hle]
      rfl

theorem sealRecord_eq_append_ofNat (r : Bytes) : sealRecord r = r ++ [BitVec.ofNat 8 (256 - byteSum r % 256)] := by
  rw [sealRecord, checksumOf_eq_ofNat_byteSum]

/-- R95: the 0x93 record before its data, for `n` data bytes. -/
def header93 (pgn : BitVec 20) (pr : BitVec 3) (src dst : Byte) (ts : BitVec 32) (n : Nat) : Bytes :=
  [0x93, BitVec.ofNat 8 (11 + n), BitVec.ofNat 8 pr.toNat, BitVec.ofNat 8 pgn.toNat, BitVec.ofNat 8 (pgn.toNat / 256),
    BitVec.ofNat 8 (pgn.toNat / 65536), dst, src, BitVec.ofNat 8 ts.toNat, BitVec.ofNat 8 (ts.toNat / 256),
    BitVec.ofNat 8 (ts.toNat / 65536), BitVec.ofNat 8 (ts.toNat / 16777216), BitVec.ofNat 8 n]

/-- R96: the 0x94 record before its data. -/
def header94 (pgn : BitVec 20) (pr : BitVec 3) (dst : Byte) (n : Nat) : Bytes :=
  [0x94, BitVec.ofNat 8 (6 + n), BitVec.ofNat 8 pr.toNat, BitVec.ofNat 8 pgn.toNat, BitVec.ofNat 8 (pgn.toNat / 256),
    BitVec.ofNat 8 (pgn.toNat / 65536), dst, BitVec.ofNat 8 n]

/-- R97: the 0xD0 record before its data, with the packed bytes of R64 and R65. -/
def headerD0 (pgn : BitVec 20) (pr : BitVec 3) (src dst : Byte) (ts : BitVec 32) (dir : BitVec 1) (mc : BitVec 2)
    (so : BitVec 1) (fps : BitVec 3) (n : Nat) : Bytes :=
  [0xD0, BitVec.ofNat 8 (13 + n), BitVec.ofNat 8 ((13 + n) / 256), dst, src, BitVec.ofNat 8 pgn.toNat,
    BitVec.ofNat 8 (pgn.toNat / 256), BitVec.ofNat 8 (pr.toNat * 4 + pgn.toNat / 65536),
    BitVec.ofNat 8 (mc.toNat + dir.toNat * 8 + so.toNat * 16 + fps.toNat * 32), BitVec.ofNat 8 ts.toNat,
    BitVec.ofNat 8 (ts.toNat / 256), BitVec.ofNat 8 (ts.toNat / 65536), BitVec.ofNat 8 (ts.toNat / 16777216)]

/-- R97, R64: the DPP byte that ENCD0 writes. -/
theorem dppByte_dataPage {pgn : BitVec 20} (pr : BitVec 3) (h : pgn.toNat ≤ 0x3FFFF) :
    dppByte pr (BitVec.ofNat 2 (pgn.toNat / 65536)) = BitVec.ofNat 8 (pr.toNat * 4 + pgn.toNat / 65536) := by
  have hpr := pr.isLt
  apply BitVec.eq_of_toNat_eq
  simp only [dppByte_toNat, BitVec.toNat_ofNat]
  omega

theorem controlByte_eq_ofNat (dir : BitVec 1) (mc : BitVec 2) (so : BitVec 1) (fps : BitVec 3) :
    controlByte dir mc so fps =
      BitVec.ofNat 8 (mc.toNat + dir.toNat * 8 + so.toNat * 16 + fps.toNat * 32) := by
  rw [← controlByte_toNat, BitVec.ofNat_toNat, BitVec.setWidth_eq]

/-- R97: the low byte of the 0xD0 length field. -/
theorem byteOf_length16_low (n : Nat) : byteOf (BitVec.ofNat 16 n) 0 = BitVec.ofNat 8 n := by
  apply BitVec.eq_of_toNat_eq
  simp only [byteOf_toNat, BitVec.toNat_ofNat]
  omega

/-- R97: the high byte of the 0xD0 length field. -/
theorem byteOf_length16_high (n : Nat) : byteOf (BitVec.ofNat 16 n) 1 = BitVec.ofNat 8 (n / 256) := by
  apply BitVec.eq_of_toNat_eq
  simp only [byteOf_toNat, BitVec.toNat_ofNat]
  omega

/-- R95, R98. -/
theorem exec_enc93 (pgn : BitVec 20) (pr : BitVec 3) (src dst : Byte) (ts : BitVec 32) (data : Bytes) (s : State) :
    exec (.enc93 pgn pr src dst ts data) s =
      .next { s with outbox := s.outbox ++ [
        if 244 < data.length then
          .error (.encodeRange .data) (Config.diagnosticText (.enc93 pgn pr src dst ts data))
        else if 0x3FFFF < pgn.toNat then
          .error (.encodeRange .pgn) (Config.diagnosticText (.enc93 pgn pr src dst ts data))
        else .encoded (sealRecord (header93 pgn pr src dst ts data.length ++ data))] } := by
  refine finish_encodeWith _ s fun h => ?_
  rw [setWidth_dataPage h, le32Bytes_eq_ofNat, ← BitVec.ofNat_toNat]
  rfl

/-- R96, R98. -/
theorem exec_enc94 (pgn : BitVec 20) (pr : BitVec 3) (dst : Byte) (data : Bytes) (s : State) :
    exec (.enc94 pgn pr dst data) s =
      .next { s with outbox := s.outbox ++ [
        if 249 < data.length then .error (.encodeRange .data) (Config.diagnosticText (.enc94 pgn pr dst data))
        else if 0x3FFFF < pgn.toNat then
          .error (.encodeRange .pgn) (Config.diagnosticText (.enc94 pgn pr dst data))
        else .encoded (sealRecord (header94 pgn pr dst data.length ++ data))] } := by
  refine finish_encodeWith _ s fun h => ?_
  rw [setWidth_dataPage h, ← BitVec.ofNat_toNat]
  rfl

/-- R97, R98. -/
theorem exec_encd0 (pgn : BitVec 20) (pr : BitVec 3) (src dst : Byte) (ts : BitVec 32) (dir : BitVec 1) (mc : BitVec 2)
    (so : BitVec 1) (fps : BitVec 3) (data : Bytes) (s : State) :
    exec (.encd0 pgn pr src dst ts dir mc so fps data) s =
      .next { s with outbox := s.outbox ++ [
        if 65522 < data.length then
          .error (.encodeRange .data) (Config.diagnosticText (.encd0 pgn pr src dst ts dir mc so fps data))
        else if 0x3FFFF < pgn.toNat then
          .error (.encodeRange .pgn) (Config.diagnosticText (.encd0 pgn pr src dst ts dir mc so fps data))
        else .encoded (sealRecord (headerD0 pgn pr src dst ts dir mc so fps data.length ++ data))] } := by
  refine finish_encodeWith _ s fun h => ?_
  rw [dppByte_dataPage pr h, controlByte_eq_ofNat, le32Bytes_eq_ofNat, byteOf_length16_low, byteOf_length16_high]
  rfl

/-! ### What the encoders write decodes to their operands -/

/-- R84: the PGN read back from its bytes, whatever the upper six bits of the one that holds Data Page. -/
theorem composePgn_of_pgn_bytes {pgn : BitVec 20} {dp : Byte} (h : pgn.toNat ≤ 0x3FFFF)
    (hdp : dp.toNat % 4 = pgn.toNat / 65536) :
    composePgn (dp &&& 3) (BitVec.ofNat 8 (pgn.toNat / 256)) (BitVec.ofNat 8 pgn.toNat) = recomposedPgn pgn :=
  composePgn_of_fields h ((and_three_toNat dp).trans hdp) (BitVec.toNat_ofNat ..) (BitVec.toNat_ofNat ..)

/-- R62: the priority read back from the byte it is written as. -/
theorem extractLsb'_priority (pr : BitVec 3) : (BitVec.ofNat 8 pr.toNat).extractLsb' 0 3 = pr := by
  have hpr := pr.isLt
  apply extractLsb'_eq_of_toNat
  rw [BitVec.toNat_ofNat]
  omega

theorem lengthsAgree_sealed93 (pgn : BitVec 20) (pr : BitVec 3) (src dst : Byte) (ts : BitVec 32) {data : Bytes}
    (h : data.length ≤ 244) :
    LengthsAgree .type93 (sealRecord (header93 pgn pr src dst ts data.length ++ data)) data.length :=
  lengthsAgree_type93 (by rw [BitVec.toNat_ofNat]; omega) (by rw [BitVec.toNat_ofNat]; omega)

theorem lengthsAgree_sealed94 (pgn : BitVec 20) (pr : BitVec 3) (dst : Byte) {data : Bytes} (h : data.length ≤ 249) :
    LengthsAgree .type94 (sealRecord (header94 pgn pr dst data.length ++ data)) data.length :=
  lengthsAgree_type94 (by rw [BitVec.toNat_ofNat]; omega) (by rw [BitVec.toNat_ofNat]; omega)

theorem lengthsAgree_sealedD0 (pgn : BitVec 20) (pr : BitVec 3) (src dst : Byte) (ts : BitVec 32) (dir : BitVec 1)
    (mc : BitVec 2) (so : BitVec 1) (fps : BitVec 3) {data : Bytes} (h : data.length ≤ 65522) :
    LengthsAgree .typeD0 (sealRecord (headerD0 pgn pr src dst ts dir mc so fps data.length ++ data)) data.length :=
  lengthsAgree_typeD0 (by rw [BitVec.toNat_ofNat, BitVec.toNat_ofNat]; omega)

theorem fields93_sealed {p : Params} {pgn : BitVec 20} (pr : BitVec 3) (src dst : Byte) (ts : BitVec 32) (data : Bytes)
    (hmask : p.dpMask = 0x03) (hpgn : pgn.toNat ≤ 0x3FFFF) :
    fields93 p (sealRecord (header93 pgn pr src dst ts data.length ++ data)) data.length =
      { recordType := .type93, pgn := recomposedPgn pgn, priority := pr, source := some src, destination := dst,
        timestamp := some ts, payloadData := data, direction := none, messageClass := none, sourceOrigin := none,
        fastPacketSequence := none } := by
  rw [sealRecord, header93, fields93_of_bytes, hmask, composePgn_of_pgn_bytes hpgn (by rw [BitVec.toNat_ofNat]; omega),
    extractLsb'_priority, le32Of_ofNat_bytes]

theorem fields94_sealed {p : Params} {pgn : BitVec 20} (pr : BitVec 3) (dst : Byte) (data : Bytes)
    (hmask : p.dpMask = 0x03) (hpgn : pgn.toNat ≤ 0x3FFFF) :
    fields94 p (sealRecord (header94 pgn pr dst data.length ++ data)) data.length =
      { recordType := .type94, pgn := recomposedPgn pgn, priority := pr, source := none, destination := dst,
        timestamp := none, payloadData := data, direction := none, messageClass := none, sourceOrigin := none,
        fastPacketSequence := none } := by
  rw [sealRecord, header94, fields94_of_bytes, hmask, composePgn_of_pgn_bytes hpgn (by rw [BitVec.toNat_ofNat]; omega),
    extractLsb'_priority]

theorem fieldsD0_sealed {pgn : BitVec 20} (pr : BitVec 3) (src dst : Byte) (ts : BitVec 32) (dir : BitVec 1)
    (mc : BitVec 2) (so : BitVec 1) (fps : BitVec 3) (data : Bytes) (hpgn : pgn.toNat ≤ 0x3FFFF) :
    fieldsD0 (sealRecord (headerD0 pgn pr src dst ts dir mc so fps data.length ++ data)) data.length =
      { recordType := .typeD0, pgn := recomposedPgn pgn, priority := pr, source := some src, destination := dst,
        timestamp := some ts, payloadData := data, direction := some dir, messageClass := some mc,
        sourceOrigin := some so, fastPacketSequence := some fps } := by
  have hpr : (BitVec.ofNat 8 (pr.toNat * 4 + pgn.toNat / 65536)).extractLsb' 2 3 = pr :=
    extractLsb'_eq_of_toNat (by rw [BitVec.toNat_ofNat]; omega)
  have hctl := controlByte_toNat dir mc so fps
  have hdir : (controlByte dir mc so fps).extractLsb' 3 1 = dir := extractLsb'_eq_of_toNat (by omega)
  have hmc : (controlByte dir mc so fps).extractLsb' 0 2 = mc := extractLsb'_eq_of_toNat (by omega)
  have hso : (controlByte dir mc so fps).extractLsb' 4 1 = so := extractLsb'_eq_of_toNat (by omega)
  have hfps : (controlByte dir mc so fps).extractLsb' 5 3 = fps := extractLsb'_eq_of_toNat (by omega)
  rw [sealRecord, headerD0, fieldsD0_of_bytes, composePgn_of_pgn_bytes hpgn (by rw [BitVec.toNat_ofNat]; omega), hpr,
    le32Of_ofNat_bytes, ← controlByte_eq_ofNat, hdir, hmc, hso, hfps]

/-- spec/42_record_codec.md §3 for any encoder: a sealed record whose lengths agree passes ZSUM and decodes to its
fields. -/
theorem sealed_record_recovers {s : State} {cmd : Instr} {rt : RecordType} {r : Bytes} {n : Nat} {fields : BstRecord}
    (henc : exec cmd s = .next { s with outbox := s.outbox ++ [.encoded (sealRecord r)] })
    (htag : byteAt (sealRecord r) 0 = recordTag rt) (hlen : LengthsAgree rt (sealRecord r) n)
    (hfields : recordFields s.params rt (sealRecord r) n = fields) :
    ∃ bytes : Bytes, bytes.length = lenEnd rt + headerSize rt + 1 + n
      ∧ exec cmd s = .next { s with outbox := s.outbox ++ [.encoded bytes] }
      ∧ exec (.zsum bytes) s = .next { s with outbox := s.outbox ++ [.zeroSum 1] }
      ∧ exec (.rdec bytes) s = .next { s with outbox := s.outbox ++ [.record fields] } := by
  refine ⟨sealRecord r, hlen.length, henc, ?zsum, ?rdec⟩
  case zsum => exact (exec_zsum_eq_next_iff _ s 1).mpr (isZeroSum_append_checksumOf r)
  case rdec => exact exec_rdec_of_lengthsAgree htag (sum8_sealRecord r) hlen hfields

/-! ### The statements -/

/-- Settles O37. -/
theorem enc93ThenRdecRecoversTheFields : Obligations.Enc93ThenRdecRecoversTheFields := by
  intro s pgn pr src dst ts data hmask hdata hpgn
  refine sealed_record_recovers (rt := .type93) ?_ rfl (lengthsAgree_sealed93 pgn pr src dst ts hdata)
    (fields93_sealed pr src dst ts data hmask hpgn)
  rw [exec_enc93, if_neg (by omega), if_neg (by omega)]

/-- Settles O38. -/
theorem enc94ThenRdecRecoversTheFields : Obligations.Enc94ThenRdecRecoversTheFields := by
  intro s pgn pr dst data hmask hdata hpgn
  refine sealed_record_recovers (rt := .type94) ?_ rfl (lengthsAgree_sealed94 pgn pr dst hdata)
    (fields94_sealed pr dst data hmask hpgn)
  rw [exec_enc94, if_neg (by omega), if_neg (by omega)]

/-- Settles O39. -/
theorem encd0ThenRdecRecoversTheFields : Obligations.Encd0ThenRdecRecoversTheFields := by
  intro s pgn pr src dst ts dir mc so fps data hdata hpgn
  refine sealed_record_recovers (rt := .typeD0) ?_ rfl (lengthsAgree_sealedD0 pgn pr src dst ts dir mc so fps hdata)
    (fieldsD0_sealed pr src dst ts dir mc so fps data hpgn)
  rw [exec_encd0, if_neg (by omega), if_neg (by omega)]

/-- Settles O32: the sum and the one length field are all that RDEC checks of a 0xD0 frame. -/
theorem decd0ReadsTheFields : Obligations.Decd0ReadsTheFields := by
  rintro s l0 l1 dst src ps pf dpp ctl t0 t1 t2 t3 ck data rest rfl hsum hl
  refine ⟨exec_decd0_eq_exec_rdec _ s, (exec_decd0_eq_exec_rdec _ s).trans ?_⟩
  refine exec_rdec_of_lengthsAgree (rt := .typeD0) rfl ((sum8_eq_zero_iff_byteSum _).mpr hsum)
    (lengthsAgree_typeD0 hl) ((fieldsD0_of_bytes ..).trans ?_)
  simp only [composePgn_eq_ofNat, and_three_toNat, le32Of_eq_ofNat, extractLsb'_eq_ofNat, Nat.reducePow, pow_zero,
    Nat.div_one]

/-- Settles O34. -/
theorem enc93WritesTheRecord : Obligations.Enc93WritesTheRecord := by
  rintro pgn pr src dst ts data r s rfl
  rw [exec_enc93, sealRecord_eq_append_ofNat]
  rfl

/-- Settles O35. -/
theorem enc94WritesTheRecord : Obligations.Enc94WritesTheRecord := by
  rintro pgn pr dst data r s rfl
  rw [exec_enc94, sealRecord_eq_append_ofNat]
  rfl

/-- Settles O36. -/
theorem encd0WritesTheRecord : Obligations.Encd0WritesTheRecord := by
  rintro pgn pr src dst ts dir mc so fps data r s rfl
  rw [exec_encd0, sealRecord_eq_append_ofNat]
  rfl

/-- Settles O33: once the sum is 0, the tag is all that is left to look at (R87 sends only other tags to this row). -/
theorem decUnsupportedAlwaysRaises : Obligations.DecUnsupportedAlwaysRaises :=
  fun s _ _ _ hsum => exec_decUnsupported_of_sum_zero s ((sum8_eq_zero_iff_byteSum _).mpr hsum)

end Sys2Proof.Machine
end

section
/-! PROOFS of the statements of spec/43_framer.md and of spec/10_state.md on the states an instance reaches. First one
equation for each transition of FDECB (R103 to R109), then what FDECC makes of two chunks one after the other and of
each part of a stuffed frame, then the statements. -/

namespace Sys2Proof.Machine

/-! ### Room in the buffer -/

theorem fits_mono {p : Params} {m n : Nat} (hle : m ≤ n) (h : p.fits n = true) : p.fits m = true := by
  unfold Params.fits at *
  split
  · rfl
  · next c hc =>
    rw [hc] at h
    exact decide_eq_true (hle.trans (of_decide_eq_true h))

/-- R40: a buffer has room exactly where it stays within the capacity with one byte more. -/
theorem hasRoom_iff_fits {p : Params} {buf : Bytes} : hasRoom p buf ↔ p.fits (buf.length + 1) = true := by
  cases hcap : p.frameCap with
  | none => simp [hasRoom, Params.fits, hcap]
  | some c => simp [hasRoom, Params.fits, hcap]

theorem appendData_of_hasRoom {p : Params} {f : Framer} (b : Byte) (h : hasRoom p f.buf) :
    appendData p f b = { f with esc := false, buf := f.buf ++ [b] } :=
  appendData_of_fits b (hasRoom_iff_fits.mp h)

theorem appendData_of_not_hasRoom {p : Params} {f : Framer} (b : Byte) (h : ¬ hasRoom p f.buf) :
    appendData p f b = abortFrame :=
  appendData_of_full b (Bool.eq_false_of_not_eq_true (mt hasRoom_iff_fits.mpr h))

/-! ### One byte, transition by transition -/

theorem framerStep_of_idle {p : Params} {f : Framer} (b : Byte) (hph : f.phase = .idle) :
    framerStep p f b = (idleStep p f b, []) := by
  simp [framerStep, hph]

/-- R103 (d). -/
theorem escAfterIdleDleDle_eq (p : Params) : escAfterIdleDleDle p = decide (p.idleDleDle = .keep) := by
  cases h : p.idleDleDle <;> simp [escAfterIdleDleDle, h]

/-- R103, the cases in the order of the spec. -/
theorem idleStep_eq (p : Params) (f : Framer) (b : Byte) :
    idleStep p f b =
      if f.esc = false then (if b = DLE then { f with esc := true } else f)
      else if b = STX then { phase := .inFrame, esc := false, buf := [] }
      else if b = DLE then { f with esc := decide (p.idleDleDle = .keep) }
      else { f with esc := false } := by
  cases h : f.esc <;> simp [idleStep, h, escAfterIdleDleDle_eq]

/-- R103 (a), R104 (a): in either phase, an unpaired DLE becomes the pending escape. -/
theorem framerStep_dle_of_unescaped {p : Params} {f : Framer} (hesc : f.esc = false) :
    framerStep p f DLE = ({ f with esc := true }, []) := by
  cases hph : f.phase <;> simp [framerStep, idleStep, inFrameStep, hph, hesc]

/-- R104 (b). -/
theorem framerStep_data {p : Params} {f : Framer} {b : Byte} (hph : f.phase = .inFrame) (hesc : f.esc = false)
    (hb : b ≠ DLE) : framerStep p f b = (appendData p f b, []) := by
  simp [framerStep, inFrameStep, hph, hesc, hb]

/-- R105. -/
theorem framerStep_escaped_dle {p : Params} {f : Framer} (hph : f.phase = .inFrame) (hesc : f.esc = true) :
    framerStep p f DLE = (appendData p f DLE, []) := by
  simp [framerStep, inFrameStep, hph, hesc]

/-- R106. -/
theorem framerStep_escaped_etx {p : Params} {f : Framer} (hph : f.phase = .inFrame) (hesc : f.esc = true) :
    framerStep p f ETX = (Framer.reset, [f.buf]) := by
  simp [framerStep, inFrameStep, hph, hesc, Framer.reset, show ETX ≠ DLE by decide]

/-- R103 (c), R107: in either phase, an STX after a pending DLE starts a frame. -/
theorem framerStep_escaped_stx {p : Params} {f : Framer} (hesc : f.esc = true) :
    framerStep p f STX = ({ phase := .inFrame, esc := false, buf := [] }, []) := by
  cases hph : f.phase <;>
    simp [framerStep, idleStep, inFrameStep, hph, hesc, show STX ≠ DLE by decide, show STX ≠ ETX by decide]

/-- R108. -/
theorem framerStep_escaped_other {p : Params} {f : Framer} {b : Byte} (hph : f.phase = .inFrame) (hesc : f.esc = true)
    (hdle : b ≠ DLE) (hetx : b ≠ ETX) (hstx : b ≠ STX) : framerStep p f b = (abortFrame, []) := by
  simp [framerStep, inFrameStep, hph, hesc, hdle, hetx, hstx]

/-- R115: of all transitions only R106's reports a frame. -/
theorem framerStep_frames (p : Params) (f : Framer) (b : Byte) :
    (framerStep p f b).2 = []
      ∨ (f.phase = .inFrame ∧ f.esc = true ∧ b = ETX ∧ (framerStep p f b).2 = [f.buf]) := by
  cases hph : f.phase with
  | idle => exact .inl (by rw [framerStep_of_idle b hph])
  | inFrame =>
    cases hesc : f.esc with
    | false =>
      by_cases hdle : b = DLE
      · exact .inl (by rw [hdle, framerStep_dle_of_unescaped hesc])
      · exact .inl (by rw [framerStep_data hph hesc hdle])
    | true =>
      by_cases hetx : b = ETX
      · exact .inr ⟨rfl, rfl, hetx, by rw [hetx, framerStep_escaped_etx hph hesc]⟩
      · by_cases hdle : b = DLE
        · exact .inl (by rw [hdle, framerStep_escaped_dle hph hesc])
        · by_cases hstx : b = STX
          · exact .inl (by rw [hstx, framerStep_escaped_stx hesc])
          · exact .inl (by rw [framerStep_escaped_other hph hesc hdle hetx hstx])

/-- Where no escape is pending, a byte other than DLE reports nothing and leaves none pending, in either phase. -/
theorem framerStep_unescaped {p : Params} {f : Framer} {b : Byte} (hesc : f.esc = false) (hb : b ≠ DLE) :
    ∃ g, framerStep p f b = (g, []) ∧ g.esc = false := by
  cases hph : f.phase with
  | idle => exact ⟨_, framerStep_of_idle b hph, by simp [idleStep_eq, hesc, hb]⟩
  | inFrame =>
    refine ⟨_, framerStep_data hph hesc hb, ?_⟩
    by_cases hroom : hasRoom p f.buf
    · rw [appendData_of_hasRoom b hroom]
    · rw [appendData_of_not_hasRoom b hroom]; rfl

/-- R103 (e), R108: a byte that pairs with no DLE leaves the instance idle, whatever its phase was. -/
theorem framerStep_invalid_escape {p : Params} {f : Framer} {b : Byte} (hesc : f.esc = true)
    (hdle : b ≠ DLE) (hetx : b ≠ ETX) (hstx : b ≠ STX) :
    ∃ g, framerStep p f b = (g, []) ∧ g.phase = .idle ∧ g.esc = false := by
  cases hph : f.phase with
  | idle =>
    refine ⟨_, framerStep_of_idle b hph, ?_⟩
    rw [idleStep_eq, if_neg (by simp [hesc]), if_neg hstx, if_neg hdle]
    exact ⟨hph, rfl⟩
  | inFrame => exact ⟨_, framerStep_escaped_other hph hesc hdle hetx hstx, rfl, rfl⟩

/-! ### Chunks -/

theorem framerDecode_singleton (p : Params) (f : Framer) (b : Byte) : framerDecode p f [b] = framerStep p f b := by
  simp [framerDecode_cons]

/-- R110: a fold over a concatenation. -/
theorem framerDecode_append (p : Params) (f : Framer) (a b : Bytes) :
    framerDecode p f (a ++ b) =
      ((framerDecode p (framerDecode p f a).1 b).1,
        (framerDecode p f a).2 ++ (framerDecode p (framerDecode p f a).1 b).2) := by
  induction a generalizing f with
  | nil => rfl
  | cons x xs ih => simp only [List.cons_append, framerDecode_cons, ih, List.append_assoc]

/-- A chunk that reports no frame only moves the instance to the state in which the rest finds it. -/
theorem framerDecode_append_of_silent {p : Params} {f g : Framer} {a : Bytes} (b : Bytes)
    (h : framerDecode p f a = (g, [])) : framerDecode p f (a ++ b) = framerDecode p g b := by
  simp [framerDecode_append, h]

theorem framerDecode_cons_of_silent {p : Params} {f g : Framer} {b : Byte} (rest : Bytes)
    (h : framerStep p f b = (g, [])) : framerDecode p f (b :: rest) = framerDecode p g rest := by
  simp [framerDecode_cons, h]

/-- R54: the first byte of a pair is the pending escape in which the second is read. -/
theorem framerDecode_pair {p : Params} {f : Framer} (b : Byte) (hesc : f.esc = false) :
    framerDecode p f [DLE, b] = framerStep p { f with esc := true } b := by
  rw [framerDecode_cons_of_silent [b] (framerStep_dle_of_unescaped hesc), framerDecode_singleton]

/-- Bytes other than DLE report nothing and leave no escape pending, even where they overflow the buffer (R109). -/
theorem framerDecode_of_no_dle {p : Params} {f : Framer} {noise : Bytes} (hesc : f.esc = false) (hno : DLE ∉ noise) :
    ∃ g, framerDecode p f noise = (g, []) ∧ g.esc = false := by
  induction noise generalizing f with
  | nil => exact ⟨f, rfl, hesc⟩
  | cons b rest ih =>
    obtain ⟨hb, hrest⟩ := not_or.mp (mt List.mem_cons.mpr hno)
    obtain ⟨g, hstep, hg⟩ := framerStep_unescaped (p := p) hesc (Ne.symm hb)
    rw [framerDecode_cons_of_silent rest hstep]
    exact ih hg hrest

/-! ### Stuffing -/

/-- R53: stuffing doubles each DLE on its own. -/
theorem stuff_eq_flatMap (payload : Bytes) :
    stuff payload = payload.flatMap (fun b => if b = DLE then [DLE, DLE] else [b]) := by
  induction payload with
  | nil => rfl
  | cons b rest ih =>
    rw [stuff_cons, List.flatMap_cons, ← ih]
    split
    · next h => rw [h]; rfl
    · rfl

theorem stuff_cons_eq_append (b : Byte) (rest : Bytes) : stuff (b :: rest) = stuff [b] ++ stuff rest := by
  simp only [stuff_eq_flatMap, List.flatMap_cons, List.flatMap_nil, List.append_nil]

theorem stuff_length (payload : Bytes) : (stuff payload).length = payload.length + payload.count DLE := by
  induction payload with
  | nil => rfl
  | cons b rest ih =>
    rw [stuff_cons]
    split
    · next h => rw [h, List.count_cons_self]; simp only [List.length_cons, ih]; omega
    · next h => rw [List.count_cons_of_ne h]; simp only [List.length_cons, ih]; omega

theorem framerEncode_length (payload : Bytes) :
    (framerEncode payload).length = payload.length + payload.count DLE + 4 := by
  simp only [framerEncode, List.length_append, List.length_cons, List.length_nil, stuff_length]
  omega

/-! ### The parts of a stuffed frame -/

/-- A frame in progress with no escape pending, the state between two stuffed bytes (R104). -/
def collecting (buf : Bytes) : Framer := { phase := .inFrame, esc := false, buf := buf }

/-- The states of spec/43_framer.md §3, in which a start marker opens a frame. -/
def awaitsStart (p : Params) (f : Framer) : Prop :=
  f.phase = .idle ∧ f.esc = false ∨ f.phase = .inFrame ∧ f.esc = false
    ∨ f.phase = .idle ∧ f.esc = true ∧ p.idleDleDle = .keep

theorem framerDecode_start_of_unescaped {p : Params} {f : Framer} (hesc : f.esc = false) :
    framerDecode p f [DLE, STX] = (collecting [], []) := by
  rw [framerDecode_pair STX hesc, framerStep_escaped_stx rfl]
  rfl

/-- Under KEEP the marker's DLE leaves the escape pending that it finds (R103 (d)), so its STX opens the frame. -/
theorem framerDecode_start {p : Params} {f : Framer} (h : awaitsStart p f) :
    framerDecode p f [DLE, STX] = (collecting [], []) := by
  obtain ⟨-, hesc⟩ | ⟨-, hesc⟩ | ⟨hph, hesc, hkeep⟩ := h
  · exact framerDecode_start_of_unescaped hesc
  · exact framerDecode_start_of_unescaped hesc
  · have hdle : framerStep p f DLE = ({ f with esc := true }, []) := by
      rw [framerStep_of_idle DLE hph, idleStep_eq, if_neg (by simp [hesc]), if_neg (by decide), if_pos rfl,
        decide_eq_true hkeep]
    rw [framerDecode_cons_of_silent [STX] hdle, framerDecode_singleton, framerStep_escaped_stx rfl]
    rfl

/-- R104, R105: one payload byte as stuffed, doubled or not, is appended as itself. -/
theorem framerDecode_stuff_singleton {p : Params} {buf : Bytes} (b : Byte) (hroom : hasRoom p buf) :
    framerDecode p (collecting buf) (stuff [b]) = (collecting (buf ++ [b]), []) := by
  rw [stuff_cons]
  split
  · next h =>
    rw [h, stuff_nil, framerDecode_pair DLE rfl, framerStep_escaped_dle rfl rfl, appendData_of_hasRoom DLE hroom]
    rfl
  · next h =>
    rw [stuff_nil, framerDecode_singleton, framerStep_data rfl rfl h, appendData_of_hasRoom b hroom]
    rfl

/-- R53, R104, R105: a stuffed payload that fits behind the buffer is appended as the payload. -/
theorem framerDecode_stuff {p : Params} {buf payload : Bytes} (hfit : p.fits (buf.length + payload.length) = true) :
    framerDecode p (collecting buf) (stuff payload) = (collecting (buf ++ payload), []) := by
  induction payload generalizing buf with
  | nil => simp
  | cons b rest ih =>
    have hroom : hasRoom p buf := hasRoom_iff_fits.mpr (fits_mono (by rw [List.length_cons]; omega) hfit)
    have hrest : p.fits ((buf ++ [b]).length + rest.length) = true := by
      rwa [List.length_append, List.length_singleton, Nat.add_assoc, Nat.add_comm 1]
    rw [stuff_cons_eq_append, framerDecode_append_of_silent _ (framerDecode_stuff_singleton b hroom), ih hrest,
      List.append_assoc]
    rfl

theorem framerDecode_end (p : Params) (buf : Bytes) :
    framerDecode p (collecting buf) [DLE, ETX] = (Framer.reset, [buf]) := by
  rw [framerDecode_pair ETX rfl, framerStep_escaped_etx rfl rfl]
  rfl

/-- The start marker and a payload within the capacity leave exactly the payload in the buffer. -/
theorem framerDecode_start_stuff {p : Params} {f : Framer} {payload : Bytes} (hstart : awaitsStart p f)
    (hfit : p.fits payload.length = true) :
    framerDecode p f ([DLE, STX] ++ stuff payload) = (collecting payload, []) := by
  rw [framerDecode_append_of_silent _ (framerDecode_start hstart)]
  exact framerDecode_stuff (buf := []) (by simpa using hfit)

/-- spec/43_framer.md §3: start marker, payload, end marker. -/
theorem framerDecode_framerEncode {p : Params} {f : Framer} {payload : Bytes} (hstart : awaitsStart p f)
    (hfit : p.fits payload.length = true) :
    framerDecode p f (framerEncode payload) = (Framer.reset, [payload]) := by
  rw [framerEncode, framerDecode_append_of_silent _ (framerDecode_start_stuff hstart hfit), framerDecode_end]

/-! ### A chunk for every legal state -/

/-- Bytes that lead an instance just made to a legal state `f`: the frame up to the buffer, then the DLE pending. -/
def chunkReaching (f : Framer) : Bytes :=
  (match f.phase with
    | .idle => []
    | .inFrame => [DLE, STX] ++ stuff f.buf)
  ++ if f.esc then [DLE] else []

/-- In either phase, a DLE (or nothing) restores the pending escape of `f`. -/
theorem framerDecode_pending_dle {p : Params} {f g : Framer} (h : { f with esc := false } = g) :
    framerDecode p g (if f.esc then [DLE] else []) = (f, []) := by
  subst h
  obtain ⟨phase, esc, buf⟩ := f
  cases esc with
  | false => rfl
  | true => exact (framerDecode_singleton ..).trans (framerStep_dle_of_unescaped rfl)

theorem framerDecode_chunkReaching {p : Params} {f : Framer} (hok : f.ok p = true) :
    framerDecode p Framer.reset (chunkReaching f) = (f, []) := by
  obtain ⟨hidle, hfit⟩ := Framer.ok_iff.mp hok
  unfold chunkReaching
  cases hph : f.phase with
  | idle => exact framerDecode_pending_dle (by rw [hph, hidle hph]; rfl)
  | inFrame =>
    have hbuf := framerDecode_start_stuff (f := Framer.reset) (.inl ⟨rfl, rfl⟩) hfit
    exact (framerDecode_append_of_silent _ hbuf).trans (framerDecode_pending_dle (by rw [hph]; rfl))

/-! ### The operations on an instance -/

theorem exec_fdecb_of_step {s : State} {i : Nat} {f g : Framer} {b : Byte} {fs : List Frame}
    (hf : s.framers[i]? = some f) (hstep : framerStep s.params f b = (g, fs)) :
    exec (.fdecb i b) s = .next { s with framers := s.framers.set i g, outbox := s.outbox ++ [.frames fs] } := by
  refine (onFramer_of_some _ hf).trans ?_
  rw [hstep]
  rfl

theorem exec_fdecc_of_decode {s : State} {i : Nat} {f g : Framer} {chunk : Bytes} {fs : List Frame}
    (hf : s.framers[i]? = some f) (hdec : framerDecode s.params f chunk = (g, fs)) :
    exec (.fdecc i chunk) s = .next { s with framers := s.framers.set i g, outbox := s.outbox ++ [.frames fs] } := by
  refine (onFramer_of_some _ hf).trans ?_
  rw [hdec]
  rfl

theorem exec_fenc (payload : Bytes) (s : State) :
    exec (.fenc payload) s = .next { s with outbox := s.outbox ++ [.wire (framerEncode payload)] } := rfl

/-- R22: an instance reads back as what was written to it. -/
theorem framers_set_getElem? {s : State} {i : Nat} {f : Framer} (g : Framer) (hf : s.framers[i]? = some f) :
    (s.framers.set i g)[i]? = some g :=
  List.getElem?_set_self (List.getElem?_eq_some_iff.mp hf).1

/-! ### The statements -/

/-- Settles O10: `framerDecode_ok` keeps an instance legal, and `chunkReaching` leads to each legal state. -/
theorem reachableFramerStatesAreExactlyTheLegalOnes : Obligations.ReachableFramerStatesAreExactlyTheLegalOnes := by
  intro p f
  have hmade : (State.make p 1).framers[0]? = some Framer.reset := rfl
  refine ⟨fun hok => ?reached, ?legal⟩
  case reached => exact ⟨chunkReaching f, _, exec_fdecc_of_decode hmade (framerDecode_chunkReaching hok), rfl⟩
  case legal =>
    rintro ⟨chunk, t, hexec, hframers⟩
    rw [exec_fdecc_of_decode hmade rfl] at hexec
    cases hexec
    obtain rfl := List.singleton_inj.mp hframers
    exact (framerDecode_ok chunk (Framer.ok_of_buf_nil rfl)).1

/-- Settles O50. -/
theorem stuffingRoundTrip : Obligations.StuffingRoundTrip := by
  intro s i f d hf hfit hstart
  exact ⟨framerEncode d, exec_fenc d s, exec_fdecc_of_decode hf (framerDecode_framerEncode hstart hfit)⟩

/-- Settles O56: the noise leaves no escape pending, so the invalid escape leaves the instance idle in either phase, and
there the valid frame is decoded alone. -/
theorem recoveryAfterDesync : Obligations.RecoveryAfterDesync := by
  intro s i f noise d xx hf hph hesc hnoise hxx hfit
  obtain ⟨hdle, hstx, hetx⟩ : xx ≠ DLE ∧ xx ≠ STX ∧ xx ≠ ETX := by simpa [DLE, STX, ETX] using hxx
  obtain ⟨g, hg, hgesc⟩ := framerDecode_of_no_dle (p := s.params) (f := collecting []) rfl hnoise
  obtain ⟨k, hk, hkph, hkesc⟩ :=
    framerStep_invalid_escape (p := s.params) (f := { g with esc := true }) rfl hdle hetx hstx
  refine exec_fdecc_of_decode hf ?_
  calc framerDecode s.params f ([DLE, STX] ++ noise ++ [DLE, xx] ++ framerEncode d)
      = framerDecode s.params f ([DLE, STX] ++ (noise ++ ([DLE, xx] ++ framerEncode d))) := by
        simp only [List.append_assoc]
    _ = framerDecode s.params (collecting []) (noise ++ ([DLE, xx] ++ framerEncode d)) :=
        framerDecode_append_of_silent _ (framerDecode_start_of_unescaped hesc)
    _ = framerDecode s.params g ([DLE, xx] ++ framerEncode d) := framerDecode_append_of_silent _ hg
    _ = framerDecode s.params k (framerEncode d) :=
        framerDecode_append_of_silent _ ((framerDecode_pair xx hgesc).trans hk)
    _ = (Framer.reset, [d]) := framerDecode_framerEncode (.inl ⟨hkph, hkesc⟩) hfit

/-- Settles O46. -/
theorem theFramerReportsOnlyFrames : Obligations.TheFramerReportsOnlyFrames := by
  refine ⟨fun s i f b hf => ?fdecb, fun s i f chunk hf => ?fdecc⟩
  case fdecb => exact ⟨_, _, exec_fdecb_of_step hf rfl, framerStep_frames s.params f b⟩
  case fdecc => exact ⟨_, _, exec_fdecc_of_decode hf rfl⟩

/-- Settles O48: the second chunk finds the instance as the first left it. -/
theorem chunkBoundariesDoNotMatter : Obligations.ChunkBoundariesDoNotMatter := by
  intro s i f a b hf
  refine ⟨_, _, _, _, exec_fdecc_of_decode hf rfl, rfl,
    exec_fdecc_of_decode (framers_set_getElem? _ hf) rfl, rfl, ?_⟩
  rw [exec_fdecc_of_decode hf (framerDecode_append s.params f a b), List.set_set]

/-- Settles O47: the first byte is a chunk of its own, which the rest follows. -/
theorem fdeccFoldsFdecbOverTheChunk : Obligations.FdeccFoldsFdecbOverTheChunk := by
  refine ⟨fun s i f hf => ?empty, fun s i f b rest hf => ?cons⟩
  case empty =>
    obtain ⟨hi, hget⟩ := List.getElem?_eq_some_iff.mp hf
    rw [exec_fdecc_of_decode hf (framerDecode_nil s.params f), ← hget, List.set_getElem_self]
  case cons =>
    obtain ⟨t, u, o, os, hfirst, hrest⟩ := chunkBoundariesDoNotMatter s i f [b] rest hf
    exact ⟨t, u, o, os, (execFdecb_eq_execFdecc i b s).trans hfirst, hrest⟩

/-- Settles O49. -/
theorem fencStuffsThePayload : Obligations.FencStuffsThePayload := by
  intro payload wire s hwire
  have hencode : wire = framerEncode payload := by
    rw [hwire, framerEncode, stuff_eq_flatMap]
    rfl
  rw [hencode]
  exact ⟨framerEncode_length payload, exec_fenc payload s⟩

/-- Settles O52: each instance is read where the other was not written. -/
theorem differentInstancesCommute : Obligations.DifferentInstancesCommute := by
  intro s i j f g a b hij hf hg
  refine ⟨_, _, _, _, _, _, exec_fdecc_of_decode hf rfl, rfl,
    exec_fdecc_of_decode ((List.getElem?_set_ne hij).trans hg) rfl, rfl,
    exec_fdecc_of_decode hg rfl, rfl,
    exec_fdecc_of_decode ((List.getElem?_set_ne hij.symm).trans hf) rfl, rfl, ?_⟩
  exact List.set_comm _ _ hij

/-- Settles O40. -/
theorem idleTransitions : Obligations.IdleTransitions := by
  intro s i f b hf hph
  refine (exec_fdecb_of_step hf (framerStep_of_idle b hph)).trans ?_
  rw [idleStep_eq]
  rfl

/-- Settles O41. -/
theorem inFrameBytesAreAppended : Obligations.InFrameBytesAreAppended := by
  intro s i f b hf hph hesc
  refine ⟨?dle, fun hb hroom => ?room, fun hb hfull => ?full⟩
  case dle =>
    rintro rfl
    exact exec_fdecb_of_step hf (framerStep_dle_of_unescaped hesc)
  case room =>
    rw [exec_fdecb_of_step hf (framerStep_data hph hesc hb), appendData_of_hasRoom b hroom, ← hesc]
  case full =>
    rw [exec_fdecb_of_step hf (framerStep_data hph hesc hb), appendData_of_not_hasRoom b hfull]
    rfl

/-- Settles O42. -/
theorem doubledDleIsOneLiteralByte : Obligations.DoubledDleIsOneLiteralByte := by
  intro s i f hf hph hesc
  have hstep := exec_fdecb_of_step hf (framerStep_escaped_dle hph hesc)
  refine ⟨fun hroom => hstep.trans ?room, fun hfull => hstep.trans ?full⟩
  case room =>
    rw [appendData_of_hasRoom DLE hroom, hph]
    rfl
  case full =>
    rw [appendData_of_not_hasRoom DLE hfull]
    rfl

/-- Settles O43. -/
theorem dleEtxEmitsTheFrame : Obligations.DleEtxEmitsTheFrame :=
  fun _ _ _ hf hph hesc => exec_fdecb_of_step hf (framerStep_escaped_etx hph hesc)

/-- Settles O44: an STX after a pending DLE starts a frame in this phase as in Idle. -/
theorem dleStxRestartsTheFrame : Obligations.DleStxRestartsTheFrame :=
  fun _ _ _ hf _ hesc => exec_fdecb_of_step hf (framerStep_escaped_stx hesc)

/-- Settles O45. -/
theorem invalidEscapeAbortsTheFrame : Obligations.InvalidEscapeAbortsTheFrame :=
  fun _ _ _ _ hf hph hesc hdle hetx hstx => exec_fdecb_of_step hf (framerStep_escaped_other hph hesc hdle hetx hstx)

end Sys2Proof.Machine
end

section
/-! PROOFS of the statements of spec/60_exceptions.md. First, that no operation of the framer answers an error; then, once,
the conditions under which RDEC raises each of its errors (`RdecRaises`), in terms of the frame's tag and length field; then
the statements, each of which reads one error's conditions off and writes them in bytes. -/

namespace Sys2Proof.Machine

/-! ### Operations that answer no error -/

/-- R115: an operation that names an instance answers frames, or FRST's empty bundle. -/
theorem exec_of_framer_answers_no_error {i : Instr} {k : Nat} {s t : State} (hk : i.framer? = some k)
    (h : exec i s = .next t) : ∃ r, t.outbox = s.outbox ++ [r] ∧ ∀ e text, r ≠ .error e text := by
  obtain rfl | ⟨chunk, heq⟩ := exec_of_framer hk
  · obtain ⟨f, -, rfl⟩ := execFrst_next h
    exact ⟨.empty, rfl, nofun⟩
  · rw [heq] at h
    obtain ⟨f, -, rfl⟩ := onFramer_next h
    exact ⟨_, rfl, nofun⟩

/-- R116: an operation that answers an error names no instance. -/
theorem framer?_eq_none_of_error {i : Instr} {s t : State} {e : Error} {text : String} (h : exec i s = .next t)
    (hout : t.outbox = s.outbox ++ [.error e text]) : i.framer? = none := by
  refine Option.eq_none_iff_forall_ne_some.mpr fun k hk => ?_
  obtain ⟨r, hr, hne⟩ := exec_of_framer_answers_no_error hk h
  exact hne e text (by simpa using hr.symm.trans hout)

/-! ### The tag and the length field of a frame -/

theorem head?_eq_some_iff_byteAt {f : Frame} {tag : Byte} : f.head? = some tag ↔ f ≠ [] ∧ byteAt f 0 = tag := by
  cases f with
  | nil => simp
  | cons b rest => simp

theorem getElem?_eq_some_byteAt {s : Bytes} {i : Nat} (h : i < s.length) : s[i]? = some (byteAt s i) := by
  rw [byteAt, List.getD_eq_getElem s 0 h, List.getElem?_eq_getElem h]

theorem byteAt_of_getElem? {s : Bytes} {i : Nat} {b : Byte} (h : s[i]? = some b) : byteAt s i = b := by
  rw [byteAt, List.getD_eq_getElem?_getD, h, Option.getD_some]

theorem exists_recordType {P : RecordType → Prop} : (∃ rt, P rt) ↔ P .type93 ∨ P .type94 ∨ P .typeD0 := by
  constructor
  · rintro ⟨rt, h⟩
    cases rt with
    | type93 => exact .inl h
    | type94 => exact .inr (.inl h)
    | typeD0 => exact .inr (.inr h)
  · rintro (h | h | h)
    · exact ⟨_, h⟩
    · exact ⟨_, h⟩
    · exact ⟨_, h⟩

/-- R87: the bytes that are no record's tag. -/
theorem recordTypeOf_eq_none_iff {t : Byte} : recordTypeOf t = none ↔ t ∉ [0x93, 0x94, 0xD0] := by
  have hno : recordTypeOf t = none ↔ ¬ ∃ rt, t = recordTag rt := by
    simp [Option.eq_none_iff_forall_ne_some, recordTypeOf_eq_some]
  rw [hno, exists_recordType]
  simp [recordTag, TAG93, TAG94, TAGD0]

/-- R88: the frame has the tag of `rt`, its length field is not cut off, and its value is `declared`. -/
structure LengthField (rt : RecordType) (f : Frame) (declared : Nat) : Prop where
  tag : f.head? = some (recordTag rt)
  fits : lenEnd rt ≤ f.length
  value : declaredLength rt f = declared

/-- R88: in the 0x93 and the 0x94 layout the length field is the byte after the tag. -/
theorem lengthField_oneByte_iff {rt : RecordType} {f : Frame} {declared : Nat} (hrt : rt ≠ .typeD0) :
    LengthField rt f declared ↔ ∃ l rest, f = recordTag rt :: l :: rest ∧ declared = l.toNat := by
  have hend : lenEnd rt = 2 := by cases rt <;> trivial
  have hvalue (t l : Byte) (rest : Bytes) : declaredLength rt (t :: l :: rest) = l.toNat := by cases rt <;> trivial
  constructor
  · rintro ⟨htag, hfits, rfl⟩
    rw [hend] at hfits
    match f, hfits with
    | t :: l :: rest, _ => exact ⟨l, rest, by rw [Option.some.inj htag], hvalue t l rest⟩
  · rintro ⟨l, rest, rfl, rfl⟩
    exact ⟨rfl, by simp [hend], hvalue _ l rest⟩

theorem lengthField_of_getElem? {rt : RecordType} {f : Frame} {l : Byte} (hrt : rt ≠ .typeD0)
    (h0 : f[0]? = some (recordTag rt)) (h1 : f[1]? = some l) : LengthField rt f l.toNat := by
  match f with
  | t :: b :: rest =>
    exact (lengthField_oneByte_iff hrt).mpr
      ⟨b, rest, by rw [Option.some.inj h0], congrArg BitVec.toNat (Option.some.inj h1).symm⟩

theorem lengthField_type93_iff {f : Frame} {declared : Nat} :
    LengthField .type93 f declared ↔ ∃ l rest, f = 0x93 :: l :: rest ∧ declared = l.toNat :=
  lengthField_oneByte_iff nofun

theorem lengthField_type94_iff {f : Frame} {declared : Nat} :
    LengthField .type94 f declared ↔ ∃ l rest, f = 0x94 :: l :: rest ∧ declared = l.toNat :=
  lengthField_oneByte_iff nofun

/-- R88: in the 0xD0 layout the length field is the two bytes after the tag, the low one first. -/
theorem lengthField_typeD0_iff {f : Frame} {declared : Nat} :
    LengthField .typeD0 f declared ↔
      ∃ l0 l1 rest, f = 0xD0 :: l0 :: l1 :: rest ∧ declared = l0.toNat + 256 * l1.toNat := by
  constructor
  · rintro ⟨htag, hfits, rfl⟩
    match f, hfits with
    | t :: l0 :: l1 :: rest, _ => exact ⟨l0, l1, rest, by rw [Option.some.inj htag]; rfl, le16_toNat _ 1⟩
  · rintro ⟨l0, l1, rest, rfl, rfl⟩
    exact ⟨rfl, by simp [lenEnd], le16_toNat _ 1⟩

/-- R121, the second place: the frames that end before their length field does. -/
theorem lengthField_cut_off_iff {f : Frame} :
    (∃ rt, f.head? = some (recordTag rt) ∧ f.length < lenEnd rt) ↔
      f = [0x93] ∨ f = [0x94] ∨ f = [0xD0] ∨ ∃ l0 : Byte, f = [0xD0, l0] := by
  constructor
  · rintro ⟨rt, htag, hcut⟩
    match f with
    | [t] =>
      obtain rfl := Option.some.inj htag
      cases rt with
      | type93 => exact .inl rfl
      | type94 => exact .inr (.inl rfl)
      | typeD0 => exact .inr (.inr (.inl rfl))
    | [t, l0] =>
      obtain rfl := Option.some.inj htag
      cases rt with
      | type93 => exact absurd hcut (by simp [lenEnd])
      | type94 => exact absurd hcut (by simp [lenEnd])
      | typeD0 => exact .inr (.inr (.inr ⟨l0, rfl⟩))
    | _ :: _ :: _ :: _ => exact absurd hcut (by cases rt <;> simp [lenEnd])
  · rintro (rfl | rfl | rfl | ⟨l0, rfl⟩)
    · exact ⟨.type93, rfl, by decide⟩
    · exact ⟨.type94, rfl, by decide⟩
    · exact ⟨.typeD0, rfl, by decide⟩
    · exact ⟨.typeD0, rfl, by simp [lenEnd]⟩

/-! ### The errors of RDEC -/

/-- R86 to R88, R93: RDEC raises the error on the frame. One constructor for each check that can fail, with what the checks
before it have established. -/
inductive RdecRaises : Frame → Error → Prop where
  | empty : RdecRaises [] (.payloadTooShort 0 .empty)
  | checksum {f : Frame} (hne : f ≠ []) (hsum : sum8 f ≠ 0) : RdecRaises f (.checksum (sum8 f))
  | unsupportedType {f : Frame} {tag : Byte} (hsum : sum8 f = 0) (htag : f.head? = some tag)
      (hno : recordTypeOf tag = none) : RdecRaises f (.unsupportedType tag)
  | lengthCutOff {f : Frame} {rt : RecordType} (hsum : sum8 f = 0) (htag : f.head? = some (recordTag rt))
      (hcut : f.length < lenEnd rt) : RdecRaises f (.payloadTooShort f.length .lengthField)
  | lengthMismatch {f : Frame} {rt : RecordType} {declared : Nat} (hsum : sum8 f = 0) (hfield : LengthField rt f declared)
      (hlen : f.length ≠ expectedLength rt declared) : RdecRaises f (.lengthMismatch declared f.length)
  | headerCutOff {f : Frame} {rt : RecordType} {declared : Nat} (hsum : sum8 f = 0) (hfield : LengthField rt f declared)
      (hlen : f.length = expectedLength rt declared) (hshort : f.length < lenEnd rt + headerSize rt + 1) :
      RdecRaises f (.payloadTooShort f.length .header)
  | dataLengthMismatch {f : Frame} {rt : RecordType} {declared n : Nat} (hsum : sum8 f = 0)
      (hfield : LengthField rt f declared) (hlen : f.length = expectedLength rt declared)
      (hn : f.length = lenEnd rt + headerSize rt + 1 + n) (hdata : declaredData rt f ≠ n) :
      RdecRaises f (.dataLengthMismatch (declaredData rt f) n)

/-- R87: on a frame that passes the checksum, a record's tag leads to that record's own checks. -/
theorem decodeRecord_of_head? {p : Params} {f : Frame} {rt : RecordType} (hsum : sum8 f = 0)
    (htag : f.head? = some (recordTag rt)) : decodeRecord p f = decodeBody p rt f := by
  obtain ⟨hne, hbyte⟩ := head?_eq_some_iff_byteAt.mp htag
  rw [decodeRecord_of_tag (recordTypeOf_eq_some.mpr hbyte), decodeTagged, preliminaryError_eq_none_iff.mpr ⟨hne, hsum⟩]

theorem rdecRaises_of_decodeBody {p : Params} {f : Frame} {rt : RecordType} {e : Error} (hsum : sum8 f = 0)
    (htag : f.head? = some (recordTag rt)) (h : decodeBody p rt f = .error e) : RdecRaises f e := by
  unfold decodeBody at h
  split at h
  case isTrue hcut => cases h; exact .lengthCutOff hsum htag hcut
  case isFalse hcut =>
    have hfield : LengthField rt f (declaredLength rt f) := ⟨htag, by omega, rfl⟩
    split at h
    case isTrue hlen => cases h; exact .lengthMismatch hsum hfield hlen
    case isFalse hlen =>
      have hlen : f.length = expectedLength rt (declaredLength rt f) := not_not.mp hlen
      split at h
      case isTrue hshort => cases h; exact .headerCutOff hsum hfield hlen hshort
      case isFalse hshort =>
        split at h
        case isTrue hdata => cases h; exact .dataLengthMismatch hsum hfield hlen (by omega) hdata
        case isFalse => cases h

theorem rdecRaises_of_decodeRecord {p : Params} {f : Frame} {e : Error} (h : decodeRecord p f = .error e) :
    RdecRaises f e := by
  unfold decodeRecord at h
  obtain ⟨rfl, hpre⟩ | ⟨hne, hsum, hpre⟩ | ⟨hne, hsum, hpre⟩ := preliminaryError_cases f
  · cases h; exact .empty
  · rw [hpre] at h; cases h; exact .checksum hne hsum
  · rw [hpre] at h
    cases htype : recordTypeOf (byteAt f 0) with
    | none =>
      rw [htype] at h
      cases h
      exact .unsupportedType hsum (head?_eq_some_iff_byteAt.mpr ⟨hne, rfl⟩) htype
    | some rt =>
      rw [htype] at h
      exact rdecRaises_of_decodeBody hsum
        (head?_eq_some_iff_byteAt.mpr ⟨hne, recordTypeOf_eq_some.mp htype⟩) h

theorem decodeRecord_of_rdecRaises {f : Frame} {e : Error} (p : Params) (h : RdecRaises f e) :
    decodeRecord p f = .error e := by
  cases h with
  | empty => rfl
  | checksum hne hsum =>
    rw [decodeRecord, preliminaryError, if_neg (by simpa using hne), if_pos hsum]
  | unsupportedType hsum htag hno =>
    obtain ⟨hne, rfl⟩ := head?_eq_some_iff_byteAt.mp htag
    rw [decodeRecord, preliminaryError_eq_none_iff.mpr ⟨hne, hsum⟩, hno]
  | lengthCutOff hsum htag hcut => rw [decodeRecord_of_head? hsum htag, decodeBody, if_pos hcut]
  | lengthMismatch hsum hfield hlen =>
    obtain ⟨htag, hfits, rfl⟩ := hfield
    rw [decodeRecord_of_head? hsum htag, decodeBody, if_neg (by omega), if_pos hlen]
  | headerCutOff hsum hfield hlen hshort =>
    obtain ⟨htag, hfits, rfl⟩ := hfield
    rw [decodeRecord_of_head? hsum htag, decodeBody, if_neg (by omega), if_neg (not_not.mpr hlen), if_pos hshort]
  | @dataLengthMismatch _ rt _ n hsum hfield hlen hn hdata =>
    obtain ⟨htag, hfits, rfl⟩ := hfield
    have hsub : f.length - (lenEnd rt + headerSize rt + 1) = n := by omega
    rw [decodeRecord_of_head? hsum htag, decodeBody, if_neg (by omega), if_neg (not_not.mpr hlen), if_neg (by omega),
      hsub, if_pos hdata]

/-- R116: RDEC's next state tells the error it raised: its bundle is the last one of the outbox. -/
theorem exec_rdec_eq_error_iff (f : Frame) (e : Error) (s : State) :
    exec (.rdec f) s = .next { s with outbox := s.outbox ++ [.error e (Config.diagnosticText (.rdec f))] }
      ↔ RdecRaises f e := by
  constructor
  · intro h
    obtain ⟨r, -, hexec⟩ | ⟨e', hdec, hexec⟩ := finish_cases (.rdec f) .record (decodeRecord s.params f) s
    · exact absurd (hexec.symm.trans h) (by simp [State.answer])
    · obtain rfl : e' = e := by simpa [State.answer] using hexec.symm.trans h
      exact rdecRaises_of_decodeRecord hdec
  · intro h
    rw [exec_rdec, decodeRecord_of_rdecRaises s.params h]
    rfl

/-! ### The conditions of each error -/

theorem rdecRaises_unsupportedType_iff {f : Frame} {tag : Byte} :
    RdecRaises f (.unsupportedType tag) ↔ sum8 f = 0 ∧ f.head? = some tag ∧ recordTypeOf tag = none := by
  constructor
  · intro h
    cases h with
    | unsupportedType hsum htag hno => exact ⟨hsum, htag, hno⟩
  · rintro ⟨hsum, htag, hno⟩
    exact .unsupportedType hsum htag hno

theorem rdecRaises_checksum_iff {f : Frame} {sum : Byte} :
    RdecRaises f (.checksum sum) ↔ f ≠ [] ∧ sum8 f ≠ 0 ∧ sum8 f = sum := by
  constructor
  · intro h
    cases h with
    | checksum hne hsum => exact ⟨hne, hsum, rfl⟩
  · rintro ⟨hne, hsum, rfl⟩
    exact .checksum hne hsum

theorem rdecRaises_lengthMismatch_iff {f : Frame} {declared actual : Nat} :
    RdecRaises f (.lengthMismatch declared actual) ↔
      sum8 f = 0 ∧ actual = f.length ∧ ∃ rt, LengthField rt f declared ∧ f.length ≠ expectedLength rt declared := by
  constructor
  · intro h
    cases h with
    | lengthMismatch hsum hfield hlen => exact ⟨hsum, rfl, _, hfield, hlen⟩
  · rintro ⟨hsum, rfl, rt, hfield, hlen⟩
    exact .lengthMismatch hsum hfield hlen

theorem rdecRaises_payloadTooShort_iff {f : Frame} {actual : Nat} {check : ShortCheck} :
    RdecRaises f (.payloadTooShort actual check) ↔
      sum8 f = 0 ∧ actual = f.length
        ∧ ((check = .empty ∧ f = [])
          ∨ (check = .lengthField ∧ ∃ rt, f.head? = some (recordTag rt) ∧ f.length < lenEnd rt)
          ∨ (check = .header ∧ ∃ rt declared, LengthField rt f declared ∧ f.length = expectedLength rt declared
              ∧ f.length < lenEnd rt + headerSize rt + 1)) := by
  constructor
  · intro h
    cases h with
    | empty => exact ⟨rfl, rfl, .inl ⟨rfl, rfl⟩⟩
    | lengthCutOff hsum htag hcut => exact ⟨hsum, rfl, .inr (.inl ⟨rfl, _, htag, hcut⟩)⟩
    | headerCutOff hsum hfield hlen hshort => exact ⟨hsum, rfl, .inr (.inr ⟨rfl, _, _, hfield, hlen, hshort⟩)⟩
  · rintro ⟨hsum, rfl, ⟨rfl, rfl⟩ | ⟨rfl, rt, htag, hcut⟩ | ⟨rfl, rt, declared, hfield, hlen, hshort⟩⟩
    · exact .empty
    · exact .lengthCutOff hsum htag hcut
    · exact .headerCutOff hsum hfield hlen hshort

theorem rdecRaises_dataLengthMismatch_iff {f : Frame} {declared actual : Nat} :
    RdecRaises f (.dataLengthMismatch declared actual) ↔
      sum8 f = 0 ∧ declared ≠ actual ∧ ∃ rt l, LengthField rt f l ∧ f.length = expectedLength rt l
        ∧ f.length = lenEnd rt + headerSize rt + 1 + actual ∧ declaredData rt f = declared := by
  constructor
  · intro h
    cases h with
    | dataLengthMismatch hsum hfield hlen hn hdata => exact ⟨hsum, hdata, _, _, hfield, hlen, hn, rfl⟩
  · rintro ⟨hsum, hdata, rt, l, hfield, hlen, hn, rfl⟩
    exact .dataLengthMismatch hsum hfield hlen hn hdata

/-- R122 by layout: the 0x93 and 0x94 layouts write the data length a second time, 0xD0 has only the one length. -/
theorem dataLength_disagrees_iff {f : Frame} {declared actual : Nat} (hne : declared ≠ actual) :
    (∃ rt l, LengthField rt f l ∧ f.length = expectedLength rt l ∧ f.length = lenEnd rt + headerSize rt + 1 + actual
        ∧ declaredData rt f = declared) ↔
      ∃ (tag l d : Byte), f[0]? = some tag ∧ f[1]? = some l ∧ f.length = l.toNat + 3 ∧ declared = d.toNat
        ∧ ((tag = 0x93 ∧ f[12]? = some d ∧ f.length = actual + 14)
          ∨ (tag = 0x94 ∧ f[7]? = some d ∧ f.length = actual + 9)) := by
  constructor
  · rintro ⟨rt, l, hfield, hlen, hn, rfl⟩
    cases rt with
    | type93 =>
      obtain ⟨b, rest, rfl, rfl⟩ := lengthField_type93_iff.mp hfield
      change _ = 14 + actual at hn
      exact ⟨0x93, b, _, rfl, rfl, hlen, rfl, .inl ⟨rfl, getElem?_eq_some_byteAt (by omega), by omega⟩⟩
    | type94 =>
      obtain ⟨b, rest, rfl, rfl⟩ := lengthField_type94_iff.mp hfield
      change _ = 9 + actual at hn
      exact ⟨0x94, b, _, rfl, rfl, hlen, rfl, .inr ⟨rfl, getElem?_eq_some_byteAt (by omega), by omega⟩⟩
    | typeD0 =>
      have hvalue := hfield.value
      change _ = l + 1 at hlen
      change _ = 14 + actual at hn
      change declaredLength .typeD0 f - 13 ≠ actual at hne
      omega
  · rintro ⟨tag, l, d, h0, h1, hlen, rfl, ⟨rfl, hd, hn⟩ | ⟨rfl, hd, hn⟩⟩
    · exact ⟨.type93, l.toNat, lengthField_of_getElem? nofun h0 h1, hlen, show _ = 14 + actual by omega,
        congrArg BitVec.toNat (byteAt_of_getElem? hd)⟩
    · exact ⟨.type94, l.toNat, lengthField_of_getElem? nofun h0 h1, hlen, show _ = 9 + actual by omega,
        congrArg BitVec.toNat (byteAt_of_getElem? hd)⟩

/-- R121, the third place, by layout. -/
theorem header_cut_off_iff {f : Frame} :
    (∃ rt declared, LengthField rt f declared ∧ f.length = expectedLength rt declared
        ∧ f.length < lenEnd rt + headerSize rt + 1) ↔
      (∃ (l : Byte) (rest : Bytes), f = 0x93 :: l :: rest ∧ f.length = l.toNat + 3 ∧ f.length < 14)
        ∨ (∃ (l : Byte) (rest : Bytes), f = 0x94 :: l :: rest ∧ f.length = l.toNat + 3 ∧ f.length < 9)
        ∨ (∃ (l0 l1 : Byte) (rest : Bytes), f = 0xD0 :: l0 :: l1 :: rest
            ∧ f.length = l0.toNat + 256 * l1.toNat + 1 ∧ f.length < 14) := by
  simp only [exists_recordType, lengthField_type93_iff, lengthField_type94_iff, lengthField_typeD0_iff]
  constructor
  · rintro (⟨_, ⟨l, rest, hf, rfl⟩, hlens⟩ | ⟨_, ⟨l, rest, hf, rfl⟩, hlens⟩ | ⟨_, ⟨l0, l1, rest, hf, rfl⟩, hlens⟩)
    · exact .inl ⟨l, rest, hf, hlens⟩
    · exact .inr (.inl ⟨l, rest, hf, hlens⟩)
    · exact .inr (.inr ⟨l0, l1, rest, hf, hlens⟩)
  · rintro (⟨l, rest, hf, hlens⟩ | ⟨l, rest, hf, hlens⟩ | ⟨l0, l1, rest, hf, hlens⟩)
    · exact .inl ⟨_, ⟨l, rest, hf, rfl⟩, hlens⟩
    · exact .inr (.inl ⟨_, ⟨l, rest, hf, rfl⟩, hlens⟩)
    · exact .inr (.inr ⟨_, ⟨l0, l1, rest, hf, rfl⟩, hlens⟩)

/-! ### The statements -/

/-- Settles O16: an operation that names no instance only appends its bundle, and FENC's bundle is a stuffed frame. -/
theorem errorsWriteNoState : Obligations.ErrorsWriteNoState := by
  intro i s t e text h hout
  have hframer := framer?_eq_none_of_error h hout
  refine ⟨?frame, hframer, ?fenc⟩
  case frame =>
    obtain ⟨r, -, heq⟩ := exec_of_no_framer s.params hframer
    rw [heq s rfl] at h
    cases h
    obtain rfl : r = .error e text := by simpa using hout
    rfl
  case fenc =>
    rintro payload rfl
    rw [exec_fenc] at h
    cases h
    simp at hout

/-- Settles O25: R87 looks at the tag once the sum is 0. -/
theorem unsupportedTypeErrorExactlyWhereNoTagMatches : Obligations.UnsupportedTypeErrorExactlyWhereNoTagMatches := by
  intro f tag s
  rw [exec_rdec_eq_error_iff, rdecRaises_unsupportedType_iff, sum8_eq_zero_iff_byteSum, recordTypeOf_eq_none_iff,
    and_left_comm]

/-- Settles O26: the sum is looked at before the tag and the length, so it alone decides. -/
theorem checksumErrorExactlyWhereTheSumIsNotZero : Obligations.ChecksumErrorExactlyWhereTheSumIsNotZero := by
  intro f sum s
  rw [exec_rdec_eq_error_iff, rdecRaises_checksum_iff, ne_eq (sum8 f), sum8_eq_zero_iff_byteSum, ← BitVec.toNat_inj,
    sum8_toNat_eq_byteSum_mod, eq_comm (b := sum.toNat)]

/-- Settles O27: the length field's value in each layout. -/
theorem lengthMismatchErrorExactlyWhereTheLengthDisagrees :
    Obligations.LengthMismatchErrorExactlyWhereTheLengthDisagrees := by
  intro f declared actual s
  rw [exec_rdec_eq_error_iff, rdecRaises_lengthMismatch_iff, sum8_eq_zero_iff_byteSum, exists_recordType,
    lengthField_type93_iff, lengthField_type94_iff, lengthField_typeD0_iff]
  refine and_congr_right fun _ => and_congr_right fun _ => ⟨?bytes, ?field⟩
  case bytes =>
    rintro (⟨⟨l, rest, hf, rfl⟩, hlen⟩ | ⟨⟨l, rest, hf, rfl⟩, hlen⟩ | ⟨⟨l0, l1, rest, hf, rfl⟩, hlen⟩)
    · exact .inl ⟨l, rest, .inl hf, rfl, hlen⟩
    · exact .inl ⟨l, rest, .inr hf, rfl, hlen⟩
    · exact .inr ⟨l0, l1, rest, hf, rfl, hlen⟩
  case field =>
    rintro (⟨l, rest, hf | hf, rfl, hlen⟩ | ⟨l0, l1, rest, hf, rfl, hlen⟩)
    · exact .inl ⟨⟨l, rest, hf, rfl⟩, hlen⟩
    · exact .inr (.inl ⟨⟨l, rest, hf, rfl⟩, hlen⟩)
    · exact .inr (.inr ⟨⟨l0, l1, rest, hf, rfl⟩, hlen⟩)

/-- Settles O28: one place for each `ShortCheck`, the last two written in bytes. -/
theorem payloadTooShortErrorExactlyInItsThreePlaces : Obligations.PayloadTooShortErrorExactlyInItsThreePlaces := by
  intro f actual check s
  rw [exec_rdec_eq_error_iff, rdecRaises_payloadTooShort_iff, sum8_eq_zero_iff_byteSum, lengthField_cut_off_iff,
    header_cut_off_iff]

/-- Settles O29: the length field has agreed, so only a second data length can disagree. -/
theorem dataLengthMismatchErrorExactlyWhereTheDataDisagrees :
    Obligations.DataLengthMismatchErrorExactlyWhereTheDataDisagrees := by
  intro f declared actual s
  rw [exec_rdec_eq_error_iff, rdecRaises_dataLengthMismatch_iff, sum8_eq_zero_iff_byteSum]
  exact and_congr_right fun _ => and_congr_right dataLength_disagrees_iff

end Sys2Proof.Machine
end

section
/-! PROOFS of the statements of spec/30_encoding.md on decoding and encoding. First each operand form as an `↔` between
reading it and writing it, which serves both directions of the round trip; then the three ports; then the statements. -/

namespace Sys2Proof.Machine

/-! ### Operands, read and written -/

/-- R51: a narrow operand is read from exactly the value it is written as. -/
theorem narrow_eq_some_iff_setWidth {v w : Nat} {x : BitVec v} {y : BitVec w} (hw : w ≤ v) :
    narrow w x = some y ↔ y.setWidth v = x := by
  rw [narrow_eq_some, ← BitVec.toNat_inj, BitVec.toNat_setWidth_of_le hw, eq_comm]

theorem narrow_setWidth {v w : Nat} (y : BitVec w) (hw : w ≤ v) : narrow w (y.setWidth v) = some y :=
  (narrow_eq_some_iff_setWidth hw).mpr rfl

/-- Log entry 2: a PGN operand is read from exactly the three bytes it is written as. -/
theorem narrow_le24_eq_some_iff {a b c : Byte} {pgn : BitVec 20} :
    narrow 20 (le24 a b c) = some pgn ↔ pgnBytes pgn = [a, b, c] := by
  have hpgn := pgn.isLt
  simp only [narrow_eq_some, le24_toNat, pgnBytes, List.cons.injEq, and_true, ← BitVec.toNat_inj, byteOf_toNat]
  omega

theorem narrow_le24_byteOf (pgn : BitVec 20) :
    narrow 20 (le24 (byteOf pgn 0) (byteOf pgn 1) (byteOf pgn 2)) = some pgn :=
  narrow_le24_eq_some_iff.mpr rfl

/-- Log entry 2: a timestamp operand is read from exactly the four bytes it is written as. -/
theorem le32Of_eq_iff {a b c d : Byte} {t : BitVec 32} : le32Of a b c d = t ↔ le32Bytes t = [a, b, c, d] := by
  have ht := t.isLt
  simp only [le32Bytes, List.cons.injEq, and_true, ← BitVec.toNat_inj, le32Of_toNat, byteOf_toNat]
  omega

theorem le32Of_byteOf (t : BitVec 32) : le32Of (byteOf t 0) (byteOf t 1) (byteOf t 2) (byteOf t 3) = t :=
  le32Of_eq_iff.mpr rfl

/-! ### The command port -/

/-- R50: no selector stands for two commands. -/
theorem ofSelector?_eq_some_iff {b : Byte} {op : Opcode} : Opcode.ofSelector? b = some op ↔ op.selector = b := by
  constructor
  · intro h
    simpa using List.find?_some h
  · rintro rfl
    cases op <;> rfl

theorem decode_commandUnit (ph : Phase) (esc : Bool) (op : Opcode) (k : Nat) (operands : Bytes) :
    decode ph esc (commandUnit op k operands) = decodeOperands op k operands := by
  simp [decode, commandUnit, decodeCommand, ofSelector?_eq_some_iff.mpr rfl]

theorem operands_of_decodeCommand {k : Nat} {bs : Bytes} {i : Instr} (h : decodeCommand k bs = .ok i) :
    ∃ op operands, bs = op.selector :: operands ∧ decodeOperands op k operands = .ok i := by
  match bs with
  | [] => cases h
  | sel :: operands =>
    cases hop : Opcode.ofSelector? sel with
    | none => simp [decodeCommand, hop] at h
    | some op => exact ⟨op, operands, by rw [ofSelector?_eq_some_iff.mp hop], by simpa [decodeCommand, hop] using h⟩

/-! Reading the operands of the five commands whose operands are narrower than their bytes; each `↔` says that exactly
the bytes the encoder writes are read, as what it was given. -/

theorem decodeOperands_pgnc_iff {k : Nat} {bs : Bytes} {i : Instr} :
    decodeOperands .pgnc k bs = .ok i ↔
      ∃ dp pf ps, i = .pgnc dp pf ps ∧ bs = [dp.setWidth 8, pf, ps] := by
  constructor
  · intro h
    simp only [decodeOperands] at h
    split at h
    case h_1 dp8 pf ps =>
      split at h
      case h_1 dp hdp =>
        cases h
        exact ⟨dp, pf, ps, rfl, by rw [(narrow_eq_some_iff_setWidth (by decide)).mp hdp]⟩
      case h_2 => cases h
    case h_2 => cases h
  · rintro ⟨dp, pf, ps, rfl, rfl⟩
    simp only [decodeOperands, narrow_setWidth dp (show 2 ≤ 8 by decide)]

theorem decodeOperands_pgns_iff {k : Nat} {bs : Bytes} {i : Instr} :
    decodeOperands .pgns k bs = .ok i ↔ ∃ pgn, i = .pgns pgn ∧ bs = pgnBytes pgn := by
  constructor
  · intro h
    simp only [decodeOperands] at h
    split at h
    case h_1 p0 p1 p2 =>
      split at h
      case h_1 pgn hpgn =>
        cases h
        exact ⟨pgn, rfl, (narrow_le24_eq_some_iff.mp hpgn).symm⟩
      case h_2 => cases h
    case h_2 => cases h
  · rintro ⟨pgn, rfl, rfl⟩
    simp only [decodeOperands, pgnBytes, narrow_le24_byteOf]

theorem decodeOperands_enc93_iff {k : Nat} {bs : Bytes} {i : Instr} :
    decodeOperands .enc93 k bs = .ok i ↔
      ∃ pgn pr src dst ts data, i = .enc93 pgn pr src dst ts data
        ∧ bs = pgnBytes pgn ++ [pr.setWidth 8, src, dst] ++ le32Bytes ts ++ data := by
  constructor
  · intro h
    simp only [decodeOperands] at h
    split at h
    case h_1 p0 p1 p2 pr8 src dst t0 t1 t2 t3 data =>
      split at h
      case h_1 pgn pr hpgn hpr =>
        cases h
        refine ⟨pgn, pr, src, dst, le32Of t0 t1 t2 t3, data, rfl, ?_⟩
        rw [narrow_le24_eq_some_iff.mp hpgn, (narrow_eq_some_iff_setWidth (by decide)).mp hpr, le32Of_eq_iff.mp rfl]
        rfl
      case h_2 => cases h
    case h_2 => cases h
  · rintro ⟨pgn, pr, src, dst, ts, data, rfl, rfl⟩
    simp only [decodeOperands, pgnBytes, le32Bytes, List.cons_append, List.nil_append, narrow_le24_byteOf,
      narrow_setWidth pr (show 3 ≤ 8 by decide), le32Of_byteOf]

theorem decodeOperands_enc94_iff {k : Nat} {bs : Bytes} {i : Instr} :
    decodeOperands .enc94 k bs = .ok i ↔
      ∃ pgn pr dst data, i = .enc94 pgn pr dst data ∧ bs = pgnBytes pgn ++ [pr.setWidth 8, dst] ++ data := by
  constructor
  · intro h
    simp only [decodeOperands] at h
    split at h
    case h_1 p0 p1 p2 pr8 dst data =>
      split at h
      case h_1 pgn pr hpgn hpr =>
        cases h
        refine ⟨pgn, pr, dst, data, rfl, ?_⟩
        rw [narrow_le24_eq_some_iff.mp hpgn, (narrow_eq_some_iff_setWidth (by decide)).mp hpr]
        rfl
      case h_2 => cases h
    case h_2 => cases h
  · rintro ⟨pgn, pr, dst, data, rfl, rfl⟩
    simp only [decodeOperands, pgnBytes, List.cons_append, List.nil_append, narrow_le24_byteOf,
      narrow_setWidth pr (show 3 ≤ 8 by decide)]

theorem decodeOperands_encd0_iff {k : Nat} {bs : Bytes} {i : Instr} :
    decodeOperands .encd0 k bs = .ok i ↔
      ∃ pgn pr src dst ts dir mc so fps data, i = .encd0 pgn pr src dst ts dir mc so fps data
        ∧ bs = pgnBytes pgn ++ [pr.setWidth 8, src, dst] ++ le32Bytes ts
          ++ [dir.setWidth 8, mc.setWidth 8, so.setWidth 8, fps.setWidth 8] ++ data := by
  constructor
  · intro h
    simp only [decodeOperands] at h
    split at h
    case h_1 p0 p1 p2 pr8 src dst t0 t1 t2 t3 dir8 mc8 so8 fps8 data =>
      split at h
      case h_1 pgn pr dir mc so fps hpgn hpr hdir hmc hso hfps =>
        cases h
        refine ⟨pgn, pr, src, dst, le32Of t0 t1 t2 t3, dir, mc, so, fps, data, rfl, ?_⟩
        rw [narrow_le24_eq_some_iff.mp hpgn, (narrow_eq_some_iff_setWidth (by decide)).mp hpr,
          (narrow_eq_some_iff_setWidth (by decide)).mp hdir, (narrow_eq_some_iff_setWidth (by decide)).mp hmc,
          (narrow_eq_some_iff_setWidth (by decide)).mp hso, (narrow_eq_some_iff_setWidth (by decide)).mp hfps,
          le32Of_eq_iff.mp rfl]
        rfl
      case h_2 => cases h
    case h_2 => cases h
  · rintro ⟨pgn, pr, src, dst, ts, dir, mc, so, fps, data, rfl, rfl⟩
    simp only [decodeOperands, pgnBytes, le32Bytes, List.cons_append, List.nil_append, narrow_le24_byteOf,
      narrow_setWidth pr (show 3 ≤ 8 by decide), narrow_setWidth dir (show 1 ≤ 8 by decide),
      narrow_setWidth mc (show 2 ≤ 8 by decide), narrow_setWidth so (show 1 ≤ 8 by decide),
      narrow_setWidth fps (show 3 ≤ 8 by decide), le32Of_byteOf]

/-- R51, log entry 2: no bit of a command's operands is dropped by reading them; and no row of the command port has a
condition on its bytes or on the phase. -/
theorem encode_wellFormed_of_decodeOperands {op : Opcode} {k : Nat} {bs : Bytes} {i : Instr}
    (h : decodeOperands op k bs = .ok i) :
    (∃ j, encode i = commandUnit op j bs) ∧ i.wellFormed = true ∧ i.phase? = none := by
  cases op with
  | cksum => cases h; exact ⟨⟨0, rfl⟩, rfl, rfl⟩
  | zsum => cases h; exact ⟨⟨0, rfl⟩, rfl, rfl⟩
  | pgnc =>
    obtain ⟨dp, pf, ps, rfl, rfl⟩ := decodeOperands_pgnc_iff.mp h
    exact ⟨⟨0, rfl⟩, rfl, rfl⟩
  | pgns =>
    obtain ⟨pgn, rfl, rfl⟩ := decodeOperands_pgns_iff.mp h
    exact ⟨⟨0, rfl⟩, rfl, rfl⟩
  | rdec => cases h; exact ⟨⟨0, rfl⟩, rfl, rfl⟩
  | enc93 =>
    obtain ⟨pgn, pr, src, dst, ts, data, rfl, rfl⟩ := decodeOperands_enc93_iff.mp h
    exact ⟨⟨0, rfl⟩, rfl, rfl⟩
  | enc94 =>
    obtain ⟨pgn, pr, dst, data, rfl, rfl⟩ := decodeOperands_enc94_iff.mp h
    exact ⟨⟨0, rfl⟩, rfl, rfl⟩
  | encd0 =>
    obtain ⟨pgn, pr, src, dst, ts, dir, mc, so, fps, data, rfl, rfl⟩ := decodeOperands_encd0_iff.mp h
    exact ⟨⟨0, rfl⟩, rfl, rfl⟩
  | fdecb =>
    match bs, h with
    | [b], h => cases h; exact ⟨⟨k, rfl⟩, rfl, rfl⟩
  | fdecc => cases h; exact ⟨⟨k, rfl⟩, rfl, rfl⟩
  | fenc => cases h; exact ⟨⟨0, rfl⟩, rfl, rfl⟩
  | frst =>
    match bs, h with
    | [], h => cases h; exact ⟨⟨k, rfl⟩, rfl, rfl⟩

/-! ### The record port and the stream port -/

/-- R56: a byte is a record's tag or none. -/
theorem eq_or_isRecordTag_eq_false (t : Byte) : t = TAG93 ∨ t = TAG94 ∨ t = TAGD0 ∨ isRecordTag t = false := by
  simp only [isRecordTag, Bool.or_eq_false_iff, beq_eq_false_iff_ne]
  tauto

/-- R56, R87: the row of the tags that are no record's. -/
theorem decodeTag_of_not_recordTag {tag : Byte} (rest : Bytes) (h : isRecordTag tag = false) :
    decodeTag (tag :: rest) = .decUnsupported tag rest := by
  obtain ⟨⟨h93, h94⟩, hD0⟩ : (tag ≠ TAG93 ∧ tag ≠ TAG94) ∧ tag ≠ TAGD0 := by simpa [isRecordTag] using h
  rw [decodeTag, if_neg h93, if_neg h94, if_neg hD0]

theorem decodeTag_wellFormed (f : Frame) : (decodeTag f).wellFormed = true ∧ (decodeTag f).phase? = none := by
  match f with
  | [] => exact ⟨rfl, rfl⟩
  | tag :: rest =>
    obtain rfl | rfl | rfl | h := eq_or_isRecordTag_eq_false tag
    · exact ⟨rfl, rfl⟩
    · exact ⟨rfl, rfl⟩
    · exact ⟨rfl, rfl⟩
    · rw [decodeTag_of_not_recordTag rest h]
      exact ⟨by simp [Instr.wellFormed, h], rfl⟩

theorem decode_pairUnit (ph : Phase) (k : Nat) (b : Byte) : decode ph false (pairUnit k b) = .ok (decodePair ph k b) :=
  rfl

/-- R54: the second byte of a pair in a frame, row by row. -/
theorem eq_or_isDesyncByte (b : Byte) : b = DLE ∨ b = ETX ∨ b = STX ∨ isDesyncByte b = true := by
  simp only [isDesyncByte, Bool.and_eq_true, bne_iff_ne]
  tauto

/-- R54: the second byte of a pair while idle, row by row. -/
theorem eq_or_isIdleOtherByte (b : Byte) : b = STX ∨ b = DLE ∨ isIdleOtherByte b = true := by
  simp only [isIdleOtherByte, Bool.and_eq_true, bne_iff_ne]
  tauto

theorem decodePair_inFrame_of_desync {b : Byte} (k : Nat) (h : isDesyncByte b = true) :
    decodePair .inFrame k b = .escDesync k b := by
  obtain ⟨⟨hdle, hstx⟩, hetx⟩ : (b ≠ DLE ∧ b ≠ STX) ∧ b ≠ ETX := by simpa [isDesyncByte] using h
  simp only [decodePair, if_neg hdle, if_neg hetx, if_neg hstx]

theorem decodePair_idle_of_other {b : Byte} (k : Nat) (h : isIdleOtherByte b = true) :
    decodePair .idle k b = .idleDleOther k b := by
  obtain ⟨hstx, hdle⟩ : b ≠ STX ∧ b ≠ DLE := by simpa [isIdleOtherByte] using h
  simp only [decodePair, if_neg hstx, if_neg hdle]

/-- R54: in each phase every pair selects a row of that phase, whose byte it is. -/
theorem decodePair_wellFormed (ph : Phase) (k : Nat) (b : Byte) :
    (decodePair ph k b).wellFormed = true ∧ (decodePair ph k b).phase? = some ph := by
  cases ph with
  | inFrame =>
    obtain rfl | rfl | rfl | h := eq_or_isDesyncByte b
    · exact ⟨rfl, rfl⟩
    · exact ⟨rfl, rfl⟩
    · exact ⟨rfl, rfl⟩
    · rw [decodePair_inFrame_of_desync k h]
      exact ⟨h, rfl⟩
  | idle =>
    obtain rfl | rfl | h := eq_or_isIdleOtherByte b
    · exact ⟨rfl, rfl⟩
    · exact ⟨rfl, rfl⟩
    · rw [decodePair_idle_of_other k h]
      exact ⟨h, rfl⟩

/-- R54, R110: the stream port reads a chunk, or a pair that no earlier DLE is pending before. -/
theorem decodeStream_cases (ph : Phase) (esc : Bool) (k : Nat) (bs : Bytes) :
    decodeStream ph esc k bs = .fdecc k bs
      ∨ esc = false ∧ ∃ b, bs = [DLE, b] ∧ decodeStream ph esc k bs = decodePair ph k b := by
  unfold decodeStream
  split
  case h_1 a b =>
    split
    case isTrue h => obtain ⟨rfl, hesc⟩ := h; exact .inr ⟨hesc, b, rfl, rfl⟩
    case isFalse => exact .inl rfl
  case h_2 => exact .inl rfl

/-! ### Where a row stands -/

theorem standsIn_of_phase?_eq_none {i : Instr} (ph : Phase) (esc : Bool) (h : i.phase? = none) :
    i.standsIn ph esc = true := by
  simp [Instr.standsIn, h]

/-- R54: a pair's row stands in its own phase with no escape pending, and only there. -/
theorem standsIn_iff_of_phase?_eq_some {i : Instr} {p ph : Phase} {esc : Bool} (h : i.phase? = some p) :
    i.standsIn ph esc = true ↔ p = ph ∧ esc = false := by
  simp [Instr.standsIn, h]

/-- R54: a pair's unit is read as its row wherever the row stands. -/
theorem decode_pairUnit_of_standsIn {i : Instr} {p ph : Phase} {esc : Bool} {k : Nat} {b : Byte}
    (hrow : decodePair p k b = i) (h : i.standsIn ph esc = true) : decode ph esc (pairUnit k b) = .ok i := by
  subst hrow
  obtain ⟨-, hphase⟩ := decodePair_wellFormed p k b
  obtain ⟨rfl, rfl⟩ := (standsIn_iff_of_phase?_eq_some hphase).mp h
  exact decode_pairUnit p k b

/-! ### The statements -/

/-- Settles O4: a command's operands are read as they were written, a frame's tag selects the row it was written for,
and a pair's row stands only in the phase in which the pair selects it. -/
theorem decodeOfEncodeIsTheInstruction : Obligations.DecodeOfEncodeIsTheInstruction := by
  intro i ph esc hwf hstands
  cases i with
  | cksum s => exact decode_commandUnit ..
  | zsum s => exact decode_commandUnit ..
  | pgnc dp pf ps => exact (decode_commandUnit ..).trans (decodeOperands_pgnc_iff.mpr ⟨_, _, _, rfl, rfl⟩)
  | pgns pgn => exact (decode_commandUnit ..).trans (decodeOperands_pgns_iff.mpr ⟨_, rfl, rfl⟩)
  | rdec f => exact decode_commandUnit ..
  | enc93 => exact (decode_commandUnit ..).trans (decodeOperands_enc93_iff.mpr ⟨_, _, _, _, _, _, rfl, rfl⟩)
  | enc94 => exact (decode_commandUnit ..).trans (decodeOperands_enc94_iff.mpr ⟨_, _, _, _, rfl, rfl⟩)
  | encd0 =>
    exact (decode_commandUnit ..).trans (decodeOperands_encd0_iff.mpr ⟨_, _, _, _, _, _, _, _, _, _, rfl, rfl⟩)
  | fdecb k b => exact decode_commandUnit ..
  | fdecc k chunk => exact decode_commandUnit ..
  | fenc p => exact decode_commandUnit ..
  | frst k => exact decode_commandUnit ..
  | dec93 rest => rfl
  | dec94 rest => rfl
  | decd0 rest => rfl
  | decUnsupported tag rest =>
    exact congrArg Except.ok (decodeTag_of_not_recordTag rest (by simpa [Instr.wellFormed] using hwf))
  | escDleLiteral k => exact decode_pairUnit_of_standsIn (p := .inFrame) rfl hstands
  | escEtxEmit k => exact decode_pairUnit_of_standsIn (p := .inFrame) rfl hstands
  | escStxRestart k => exact decode_pairUnit_of_standsIn (p := .inFrame) rfl hstands
  | escDesync k xx => exact decode_pairUnit_of_standsIn (decodePair_inFrame_of_desync k hwf) hstands
  | idleDleStxStart k => exact decode_pairUnit_of_standsIn (p := .idle) rfl hstands
  | idleDleDle k => exact decode_pairUnit_of_standsIn (p := .idle) rfl hstands
  | idleDleOther k xx => exact decode_pairUnit_of_standsIn (decodePair_idle_of_other k hwf) hstands

/-- Settles O5: by the port on which the unit was read. -/
theorem decodedCommandGivesItsBytesBack : Obligations.DecodedCommandGivesItsBytesBack := by
  rintro ph esc ⟨port, k, bs⟩ i h
  cases port with
  | command =>
    obtain ⟨op, operands, rfl, hops⟩ := operands_of_decodeCommand h
    obtain ⟨⟨j, henc⟩, hwf, hphase⟩ := encode_wellFormed_of_decodeOperands hops
    rw [henc]
    exact ⟨hwf, standsIn_of_phase?_eq_none ph esc hphase, fun _ => ⟨rfl, rfl⟩⟩
  | record =>
    obtain rfl : decodeTag bs = i := Except.ok.inj h
    obtain ⟨hwf, hphase⟩ := decodeTag_wellFormed bs
    exact ⟨hwf, standsIn_of_phase?_eq_none ph esc hphase, nofun⟩
  | stream =>
    obtain rfl : decodeStream ph esc k bs = i := Except.ok.inj h
    obtain heq | ⟨hesc, b, -, heq⟩ := decodeStream_cases ph esc k bs
    · rw [heq]
      exact ⟨rfl, rfl, nofun⟩
    · obtain ⟨hwf, hphase⟩ := decodePair_wellFormed ph k b
      rw [heq]
      exact ⟨hwf, (standsIn_iff_of_phase?_eq_some hphase).mpr ⟨rfl, hesc⟩, nofun⟩

/-- Settles O1. -/
theorem stepRunsTheDecodedInstruction : Obligations.StepRunsTheDecodedInstruction := by
  intro s u rest i hin hdec _
  simp only [step, hin, hdec]
  rfl

/-- Settles O3. -/
theorem stepWithNothingIssuedKeepsTheState : Obligations.StepWithNothingIssuedKeepsTheState := by
  intro s hin
  simp only [step, hin]

/-- Settles O6. -/
theorem wordsOfTheTablesDecode : Obligations.WordsOfTheTablesDecode :=
  ⟨rfl, rfl, rfl, rfl, rfl, rfl⟩

end Sys2Proof.Machine
end

section
/-! PROOFS of the statements on where an operation completes, on the rows that RDEC runs, on the fields of the 0x93 and
the 0x94 row, and on the invariant at reset. -/

namespace Sys2Proof.Machine

/-! ### Where an operation completes -/

theorem serves_iff_of_framer?_eq_some {s : State} {i : Instr} {k : Nat} (h : i.framer? = some k) :
    s.serves i = true ↔ k < s.framers.length := by
  simp [State.serves, h]

/-- Log entry 11. -/
theorem exec_of_missing {s : State} {i : Instr} {k : Nat} (h : i.framer? = some k) (hk : s.framers[k]? = none) :
    exec i s = .fault (.noSuchInstance k) := by
  obtain rfl | ⟨chunk, heq⟩ := exec_of_framer h
  · exact execFrst_of_none hk
  · exact (heq s).trans (onFramer_of_none _ hk)

theorem exec_completes_of_present {s : State} {i : Instr} {k : Nat} {f : Framer} (h : i.framer? = some k)
    (hk : s.framers[k]? = some f) : ∃ t, exec i s = .next t := by
  obtain rfl | ⟨chunk, heq⟩ := exec_of_framer h
  · exact ⟨_, execFrst_of_some hk⟩
  · exact ⟨_, (heq s).trans (onFramer_of_some _ hk)⟩

/-! ### The rows of the tags -/

/-- R87: RDEC of a frame with a record's tag, in the form in which that tag's row is defined. -/
theorem exec_rdec_of_tag {f : Frame} {rt : RecordType} (h : recordTypeOf (byteAt f 0) = some rt) (s : State) :
    exec (.rdec f) s = finish (.rdec f) .record (decodeTagged s.params rt f) s := by
  rw [exec_rdec, decodeRecord_of_tag h]

theorem exec_dec93_eq_exec_rdec (rest : Bytes) (s : State) : exec (.dec93 rest) s = exec (.rdec (0x93 :: rest)) s :=
  (exec_rdec_of_tag (rt := .type93) rfl s).symm

theorem exec_dec94_eq_exec_rdec (rest : Bytes) (s : State) : exec (.dec94 rest) s = exec (.rdec (0x94 :: rest)) s :=
  (exec_rdec_of_tag (rt := .type94) rfl s).symm

/-- R87, R92. -/
theorem exec_decUnsupported_eq_exec_rdec {tag : Byte} (rest : Bytes) (h : isRecordTag tag = false) (s : State) :
    exec (.decUnsupported tag rest) s = exec (.rdec (tag :: rest)) s := by
  have hno : recordTypeOf tag = none :=
    recordTypeOf_eq_none_iff.mpr (by simpa [isRecordTag, TAG93, TAG94, TAGD0, and_assoc] using h)
  rw [exec_rdec, decodeRecord_of_no_tag (f := tag :: rest) hno]
  rfl

/-! ### The statements -/

/-- Settles O15: whether the instance named exists is all that an operation can stop on. -/
theorem execCompletesExactlyWhereTheInstanceExists : Obligations.ExecCompletesExactlyWhereTheInstanceExists := by
  intro i s
  cases h : i.framer? with
  | none =>
    obtain ⟨r, -, heq⟩ := exec_of_no_framer s.params h
    exact ⟨fun _ => ⟨_, heq s rfl⟩, fun hno => by simp [State.serves, h] at hno⟩
  | some k =>
    refine ⟨fun hserves => ?present, fun hno => ⟨k, rfl, ?missing⟩⟩
    case present =>
      exact exec_completes_of_present h (List.getElem?_eq_getElem ((serves_iff_of_framer?_eq_some h).mp hserves))
    case missing =>
      have hk : ¬ k < s.framers.length := mt (serves_iff_of_framer?_eq_some h).mpr (by simp [hno])
      exact exec_of_missing h (List.getElem?_eq_none (by omega))

/-- Settles O24: by the tag. -/
theorem rdecRunsTheRowOfItsTag : Obligations.RdecRunsTheRowOfItsTag := by
  intro f s
  match f with
  | [] => rfl
  | tag :: rest =>
    obtain rfl | rfl | rfl | h := eq_or_isRecordTag_eq_false tag
    · exact (exec_dec93_eq_exec_rdec rest s).symm
    · exact (exec_dec94_eq_exec_rdec rest s).symm
    · exact (exec_decd0_eq_exec_rdec rest s).symm
    · rw [decodeTag_of_not_recordTag rest h]
      exact (exec_decUnsupported_eq_exec_rdec rest h s).symm

/-- Settles O30: the sum and the length agree, so only the data length byte is left to disagree. -/
theorem dec93ReadsTheFields : Obligations.Dec93ReadsTheFields := by
  rintro s l pr ps pf dp dst src t0 t1 t2 t3 dlen ck data rest rfl hsum hl
  refine ⟨exec_dec93_eq_exec_rdec _ s, (exec_dec93_eq_exec_rdec _ s).trans ?_⟩
  split
  case isTrue hdlen =>
    refine exec_rdec_of_lengthsAgree (rt := .type93) rfl ((sum8_eq_zero_iff_byteSum _).mpr hsum)
      (lengthsAgree_type93 hl hdlen) ((fields93_of_bytes ..).trans ?_)
    simp only [composePgn_eq_ofNat, le32Of_eq_ofNat, extractLsb'_eq_ofNat, pow_zero, Nat.div_one]
  case isFalse hdlen =>
    have hlen : (0x93 :: ([l, pr, ps, pf, dp, dst, src, t0, t1, t2, t3, dlen] ++ data ++ [ck])).length
        = 14 + data.length := length_header_data_ck (0x93 :: _) data ck
    exact (dataLengthMismatchErrorExactlyWhereTheDataDisagrees _ _ _ s).mpr ⟨hsum, hdlen, 0x93, l, dlen, rfl, rfl,
      by omega, rfl, .inl ⟨rfl, rfl, by omega⟩⟩

/-- Settles O31: as for the 0x93 layout. -/
theorem dec94ReadsTheFields : Obligations.Dec94ReadsTheFields := by
  rintro s l pr ps pf dp dst dlen ck data rest rfl hsum hl
  refine ⟨exec_dec94_eq_exec_rdec _ s, (exec_dec94_eq_exec_rdec _ s).trans ?_⟩
  split
  case isTrue hdlen =>
    refine exec_rdec_of_lengthsAgree (rt := .type94) rfl ((sum8_eq_zero_iff_byteSum _).mpr hsum)
      (lengthsAgree_type94 hl hdlen) ((fields94_of_bytes ..).trans ?_)
    simp only [composePgn_eq_ofNat, extractLsb'_eq_ofNat, pow_zero, Nat.div_one]
  case isFalse hdlen =>
    have hlen : (0x94 :: ([l, pr, ps, pf, dp, dst, dlen] ++ data ++ [ck])).length = 9 + data.length :=
      length_header_data_ck (0x94 :: _) data ck
    exact (dataLengthMismatchErrorExactlyWhereTheDataDisagrees _ _ _ s).mpr ⟨hsum, hdlen, 0x94, l, dlen, rfl, rfl,
      by omega, rfl, .inr ⟨rfl, rfl, by omega⟩⟩

/-- Settles O8: the two instances of the reset state, each idle with an empty buffer. -/
theorem invariantHoldsAtReset : Obligations.InvariantHoldsAtReset := by
  refine State.inv_iff.mpr ⟨rfl, List.cons_ne_nil _ _, fun f hf => ?_, nofun⟩
  obtain ⟨-, rfl⟩ := List.mem_replicate.mp hf
  exact Framer.ok_of_buf_nil rfl

end Sys2Proof.Machine
end

section
/-! PROOFS of the statements on the escape pairs of spec/30_encoding.md R54 and on FRST: each pair's row is FDECC of its
two bytes, and the second is one transition of R103 to R108. -/

namespace Sys2Proof.Machine

/-! ### The escape pairs -/

/-- R54, log entry 15: whichever row a pair selects, it feeds the pair's two bytes. -/
theorem exec_decodePair (ph : Phase) (k : Nat) (b : Byte) (s : State) :
    exec (decodePair ph k b) s = exec (.fdecc k [DLE, b]) s := by
  cases ph with
  | inFrame =>
    obtain rfl | rfl | rfl | h := eq_or_isDesyncByte b
    · rfl
    · rfl
    · rfl
    · rw [decodePair_inFrame_of_desync k h]
      rfl
  | idle =>
    obtain rfl | rfl | h := eq_or_isIdleOtherByte b
    · rfl
    · rfl
    · rw [decodePair_idle_of_other k h]
      rfl

/-- R54: where no escape is pending, a pair is its second byte read with the escape that its DLE leaves pending. -/
theorem exec_pair_of_step {s : State} {k : Nat} {f g : Framer} {b : Byte} {fs : List Frame}
    (hf : s.framers[k]? = some f) (hesc : f.esc = false)
    (hstep : framerStep s.params { f with esc := true } b = (g, fs)) :
    exec (.fdecc k [DLE, b]) s =
      .next { s with framers := s.framers.set k g, outbox := s.outbox ++ [.frames fs] } :=
  exec_fdecc_of_decode hf ((framerDecode_pair b hesc).trans hstep)

/-- An instance written as it stands is unchanged. -/
theorem framers_set_self {s : State} {k : Nat} {f : Framer} (hf : s.framers[k]? = some f) :
    s.framers.set k f = s.framers := by
  obtain ⟨hk, hget⟩ := List.getElem?_eq_some_iff.mp hf
  rw [← hget, List.set_getElem_self]

/-! ### The statements -/

/-- Settles O55: the model feeds a row's two bytes in every state of the instance. -/
theorem pairRowIsFdeccOfItsBytes : Obligations.PairRowIsFdeccOfItsBytes :=
  fun s i f b _ _ => exec_decodePair f.phase i b s

/-- Settles O51. -/
theorem frstResetsTheInstance : Obligations.FrstResetsTheInstance :=
  fun _ _ _ hf => execFrst_of_some hf

/-- Settles O53: each row is FDECC of its pair, and the pair's second byte is read with the escape pending. -/
theorem inFramePairsDoWhatTheirRowsSay : Obligations.InFramePairsDoWhatTheirRowsSay := by
  intro s i f xx hf hph hesc
  have hliteral : exec (.escDleLiteral i) s = _ := exec_pair_of_step hf hesc (framerStep_escaped_dle hph rfl)
  refine ⟨fun hroom => hliteral.trans ?room, fun hfull => hliteral.trans ?full,
    exec_pair_of_step hf hesc (framerStep_escaped_etx hph rfl),
    exec_pair_of_step hf hesc (framerStep_escaped_stx rfl), fun hxx => ?desync⟩
  case room =>
    rw [appendData_of_hasRoom (f := { f with esc := true }) DLE hroom, hph]
    rfl
  case full =>
    rw [appendData_of_not_hasRoom (f := { f with esc := true }) DLE hfull]
    rfl
  case desync =>
    obtain ⟨hdle, hstx, hetx⟩ : xx ≠ DLE ∧ xx ≠ STX ∧ xx ≠ ETX := by simpa [DLE, STX, ETX] using hxx
    exact exec_pair_of_step hf hesc (framerStep_escaped_other hph rfl hdle hetx hstx)

/-- Settles O54: as for the in-frame rows, by the idle transitions. -/
theorem idlePairsDoWhatTheirRowsSay : Obligations.IdlePairsDoWhatTheirRowsSay := by
  intro s i f xx hf hph hesc
  refine ⟨exec_pair_of_step hf hesc (framerStep_escaped_stx rfl), ?dle, fun hxx => ?other⟩
  case dle =>
    refine (exec_pair_of_step hf hesc (framerStep_of_idle DLE hph)).trans ?_
    rw [idleStep_eq]
    rfl
  case other =>
    obtain ⟨hstx, hdle⟩ : xx ≠ STX ∧ xx ≠ DLE := by simpa [DLE, STX] using hxx
    have hstep : framerStep s.params { f with esc := true } xx = (f, []) := by
      rw [framerStep_of_idle (f := { f with esc := true }) xx hph, idleStep_eq,
        if_neg (by simp), if_neg hstx, if_neg hdle, ← hesc]
    refine (exec_pair_of_step hf hesc hstep).trans ?_
    rw [framers_set_self hf]

end Sys2Proof.Machine
end

section
/-! PROOF of the statement on the pseudo-operations of spec/30_encoding.md R71: what SEND93 builds, RECV takes apart. -/

namespace Sys2Proof.Machine

/-! ### The pseudo-operations -/

/-- R71: an encoder's record is followed by its stuffed frame. -/
theorem thenFrame_of_encoded (s : State) (r : Bytes) :
    thenFrame (.next { s with outbox := s.outbox ++ [.encoded r] }) =
      .next { s with outbox := s.outbox ++ [.encoded r, .wire (framerEncode r)] } := by
  simp [thenFrame, execFenc, State.answer]

theorem decodeEach_singleton {f : Frame} {s t : State} (h : exec (.rdec f) s = .next t) :
    decodeEach [f] s = .next t := by
  change execRdec f s = .next t at h
  simp [decodeEach, h]

/-- R71: RECV of a chunk that gives frames goes on with RDEC of each. -/
theorem recv_of_decode {s : State} {k : Nat} {f g : Framer} {chunk : Bytes} {fs : List Frame}
    (hf : s.framers[k]? = some f) (hdec : framerDecode s.params f chunk = (g, fs)) :
    recv k chunk s =
      decodeEach fs { s with framers := s.framers.set k g, outbox := s.outbox ++ [.frames fs] } := by
  have hexec : execFdecc k chunk s = _ := exec_fdecc_of_decode hf hdec
  simp [recv, hexec]

/-- R71, spec/30_encoding.md §7 for any record: on an instance as it is after reset, RECV of a stuffed frame emits the
frame, decodes it, and leaves the instance as it was. -/
theorem recv_framerEncode {s : State} {k : Nat} {d : Frame} {r : Result}
    (hf : s.framers[k]? = some Framer.reset) (hfit : s.params.fits d.length = true)
    (hrdec : ∀ t : State, t.params = s.params → exec (.rdec d) t = .next { t with outbox := t.outbox ++ [r] }) :
    recv k (framerEncode d) s = .next { s with outbox := s.outbox ++ [.frames [d], r] } := by
  rw [recv_of_decode hf (framerDecode_framerEncode (.inl ⟨rfl, rfl⟩) hfit), framers_set_self hf,
    decodeEach_singleton (hrdec { s with outbox := s.outbox ++ [.frames [d]] } rfl)]
  simp

theorem exec_rdec_sealed93 {s : State} {pgn : BitVec 20} (pr : BitVec 3) (src dst : Byte) (ts : BitVec 32)
    {data : Bytes} (hmask : s.params.dpMask = 0x03) (hdata : data.length ≤ 244) (hpgn : pgn.toNat ≤ 0x3FFFF) :
    exec (.rdec (sealRecord (header93 pgn pr src dst ts data.length ++ data))) s =
      .next { s with outbox := s.outbox ++ [.record
        { recordType := .type93, pgn := recomposedPgn pgn, priority := pr, source := some src, destination := dst,
          timestamp := some ts, payloadData := data, direction := none, messageClass := none, sourceOrigin := none,
          fastPacketSequence := none }] } :=
  exec_rdec_of_lengthsAgree (rt := .type93) rfl (sum8_sealRecord _) (lengthsAgree_sealed93 pgn pr src dst ts hdata)
    (fields93_sealed pr src dst ts data hmask hpgn)

/-! ### The statements -/

/-- Settles O57: SEND93 stuffs the sealed record, whose 14 + n bytes fit, so RECV emits it and RDEC reads its fields. -/
theorem recvOfSend93RecoversTheFields : Obligations.RecvOfSend93RecoversTheFields := by
  intro s i pgn pr src dst ts data hf hmask hdata hpgn hfit
  have hsend : send93 pgn pr src dst ts data s = thenFrame (exec (.enc93 pgn pr src dst ts data) s) := rfl
  rw [exec_enc93, if_neg (by omega), if_neg (by omega), thenFrame_of_encoded] at hsend
  refine ⟨_, _, _, hsend, rfl, recv_framerEncode hf ?fits fun t ht => exec_rdec_sealed93 pr src dst ts ?mask hdata hpgn⟩
  case fits => rwa [(lengthsAgree_sealed93 pgn pr src dst ts hdata).length]
  case mask => rw [ht]; exact hmask

end Sys2Proof.Machine
end
